-- ==== Sys2Proof/Word.lean ====
section
/-! DEFINITION. The words of the block: the host word (R8, R10), the byte, and the slave address. -/

namespace Sys2Proof

/-- A host word: 32 bits, bit 0 the least significant (R8, R10). -/
abbrev Word := BitVec 32

/-- A byte on the wire, a register index, the data byte, a completion context (R8: `REG_WIDTH`, `DATA_CAP`, `CTX_WIDTH`). -/
abbrev Byte := BitVec 8

/-- A 7-bit slave address (R8: `SA_WIDTH`). -/
abbrev SlaveAddr := BitVec 7

end Sys2Proof
end

