-- ==== Sys2Proof/Syntax.lean ====
section
/-! DEFINITION. The names the spec gives: the protocol states, the direction, the result codes, the adapter's
flags and actions, the instructions of spec/opcode_table.json, and the assembler's lines (R90). -/

namespace Sys2Proof

/-- `DIR`: Write is 0 and Read is 1 (R22). -/
inductive Dir where
  | write
  | read
  deriving DecidableEq, Repr

/-- `STATE`, 3 bits: the seven protocol steps in the source's order, and the value 7 that names no state (R21). -/
inductive ProtoState where
  /-- 0, AddressWrite -/
  | aw
  /-- 1, CommandWrite -/
  | cw
  /-- 2, DataWrite -/
  | dw
  /-- 3, WriteDone -/
  | wd
  /-- 4, AddressRead -/
  | ar
  /-- 5, ReadSwitch -/
  | rs
  /-- 6, DataRead -/
  | dr
  /-- 7: no state; it can arise only from corrupted state (R21) -/
  | noState
  deriving DecidableEq, Repr

/-- `RESULT`, 3 bits: None, the six errors in the taxonomy's order, and the value 7 that nothing writes (R200, I13). -/
inductive ResultCode where
  /-- 0, None -/
  | ok
  /-- 1 -/
  | busBusy
  /-- 2 -/
  | transferNotComplete
  /-- 3 -/
  | masterModeStillSet
  /-- 4 -/
  | hardwareTimeout
  /-- 5 -/
  | acknowledgeMissing
  /-- 6 -/
  | unexpectedProtocolState
  /-- 7: never written (R200) -/
  | neverWritten
  deriving DecidableEq, Repr

/-- The adapter flags the engine can sample (R42). -/
inductive Flag where
  | tcf
  | busy
  | mst
  | iicif
  | arbl
  | acked
  deriving DecidableEq, Repr

/-- The bus actions the engine can issue (R41). `rx` asks the adapter to receive and to NACK the next byte:
PRESUMED by the spec itself from general knowledge (G1, D15), see log 16; the model only records the action. -/
inductive BusAction where
  | start
  | rstart
  | stop
  | tx
  | rx
  | write (b : Byte)
  | read
  | clrif
  | clrarb
  deriving DecidableEq, Repr

/-- The instructions: one constructor per row of spec/opcode_table.json. The first six are command words (format
`CMD`, R82); the others are the service-step rows (format `STEP`, R89), decoded only for an SVC with PEND = 1.
The row's free bits are its operands; the three `UX` rows are three constructors. -/
inductive Instr where
  /-- BWR sa, rg, data (R105) -/
  | bwr (sa : SlaveAddr) (rg : Byte) (data : Byte)
  /-- BRD sa, rg, ctx with the ARM bit (R106) -/
  | brd (sa : SlaveAddr) (rg : Byte) (ctx : Byte) (arm : Bool)
  /-- SVC (R120) -/
  | svc
  /-- PTC (R161) -/
  | ptc
  /-- PBB (R162) -/
  | pbb
  /-- PMM (R163) -/
  | pmm
  /-- T1, `x000`: AddressWrite -> CommandWrite, either direction (R126) -/
  | t1 (dir : Dir)
  /-- T2, `0001` (R127) -/
  | t2
  /-- T3, `0010` (R128) -/
  | t3
  /-- T4, `0011` (R129) -/
  | t4
  /-- T5, `1001` (R130) -/
  | t5
  /-- T6, `1100` (R131) -/
  | t6
  /-- T7, `1101` (R132) -/
  | t7
  /-- T8, `1110` (R133) -/
  | t8
  /-- UX, `01xx`: Write with STATE 4 to 7; `low` is STATE[1:0] (R134) -/
  | uxWrite (low : BitVec 2)
  /-- UX, `101x`: Read with STATE 2 or 3; `low` is STATE[0] (R134) -/
  | uxRead (low : BitVec 1)
  /-- UX, `1111`: Read with STATE 7 (R134) -/
  | uxReadSeven
  deriving DecidableEq, Repr

/-- The step an SVC selects from {DIR, STATE} (R89, R123): the `STEP` rows alone, so that the selection is total. -/
inductive StepRow where
  | t1 (dir : Dir)
  | t2
  | t3
  | t4
  | t5
  | t6
  | t7
  | t8
  | uxWrite (low : BitVec 2)
  | uxRead (low : BitVec 1)
  | uxReadSeven
  deriving DecidableEq, Repr

/-- The two formats of spec/opcode_table.json. -/
inductive Format where
  /-- a 32-bit command word (R80) -/
  | cmd
  /-- the 4-bit vector {DIR, STATE} (R89) -/
  | step
  deriving DecidableEq, Repr

/-- An encoding in one of the two formats. -/
inductive Code where
  | cmd (w : Word)
  | step (v : BitVec 4)
  deriving DecidableEq, Repr

/-- Why a command word is reserved (R93). -/
inductive Reserved where
  /-- its OP is 0x0 or 0x7 to 0xF (R82) -/
  | op (op : BitVec 4)
  /-- it has a 1 in a must-be-zero bit of its command (R87) -/
  | mustBeZero (op : BitVec 4)
  deriving DecidableEq, Repr

/-- A line of the assembler notation (R90). Operands are numbers as written; their ranges are checked by `Asm.wf`. -/
inductive Asm where
  /-- `BWR sa, rg, data` -/
  | bwr (sa rg data : Nat)
  /-- `BRD sa, rg, ctx`: arms the completion -/
  | brd (sa rg ctx : Nat)
  /-- `BRD.N sa, rg`: no completion, context 0 -/
  | brdN (sa rg : Nat)
  /-- `BRD.N sa, rg, ctx`: no completion -/
  | brdNCtx (sa rg ctx : Nat)
  | svc
  | ptc
  | pbb
  | pmm
  deriving DecidableEq, Repr

/-- The instruction a service-step row stands for. -/
def StepRow.toInstr : StepRow → Instr
  | .t1 d => .t1 d
  | .t2 => .t2
  | .t3 => .t3
  | .t4 => .t4
  | .t5 => .t5
  | .t6 => .t6
  | .t7 => .t7
  | .t8 => .t8
  | .uxWrite low => .uxWrite low
  | .uxRead low => .uxRead low
  | .uxReadSeven => .uxReadSeven

/-- The format of an instruction's row in spec/opcode_table.json. -/
def Instr.format : Instr → Format
  | .bwr _ _ _ => .cmd
  | .brd _ _ _ _ => .cmd
  | .svc => .cmd
  | .ptc => .cmd
  | .pbb => .cmd
  | .pmm => .cmd
  | .t1 _ => .step
  | .t2 => .step
  | .t3 => .step
  | .t4 => .step
  | .t5 => .step
  | .t6 => .step
  | .t7 => .step
  | .t8 => .step
  | .uxWrite _ => .step
  | .uxRead _ => .step
  | .uxReadSeven => .step

end Sys2Proof
end

