-- ==== Sys2Proof/Config.lean ====
section
/-! DEFINITION. The parameters the spec leaves OPEN (R8, R9) and the free values (R43). None of the opaque constants
has a body: nothing proves a value of one, so a claim holds for every value. -/

namespace Sys2Proof.Config

/-- `PROBE_LIMIT` less one: any number (R9: a model "must not fix them to a number"; log 6). -/
opaque probeLimitLessOne : Nat

/-- `PROBE_LIMIT`, an integer ≥ 1 (R8, R160). -/
def probeLimit : Nat := probeLimitLessOne + 1

/-- `BASE` divided by 16: any number (R9; log 3). -/
opaque basePage : Nat

/-- `BASE`, a host address aligned to 16 bytes (R8, R61). -/
def base : Nat := 16 * basePage

/-- The adapter's answer to a flag sample that no input gives: a draw with no law (R43, I5). The number counts
the draws taken before it, so every draw is a value of its own (log 1). -/
opaque freeFlag : Flag → Nat → Bool

/-- The byte the adapter returns to a READ that no input gives (R43, I5), counted the same way (log 1). -/
opaque freeByte : Nat → Byte

end Sys2Proof.Config
end

