-- ==== Sys2Proof/WellFormed.lean ====
section
/-! DEFINITION. Well-formedness of the syntax. The operands of `Instr` carry their widths in their types, so what is
left to check is that an instruction has the format a place asks for, and the ranges of the assembler's numbers (R90). -/

namespace Sys2Proof

/-- A command: an instruction the host can write to CMD. A service-step row is none (R89). -/
def Instr.isCommand (i : Instr) : Bool := i.format == .cmd

/-- A service-step row: what an SVC selects, never a word written to CMD (R89). -/
def Instr.isStepRow (i : Instr) : Bool := i.format == .step

/-- `sa` ranges over 0 to 0x7F (R90). -/
def Asm.saInRange (n : Nat) : Bool := decide (n ≤ 0x7F)

/-- `rg`, `data` and `ctx` range over 0 to 0xFF (R90). -/
def Asm.byteInRange (n : Nat) : Bool := decide (n ≤ 0xFF)

/-- "An operand out of range is an assembly error, and no word is made" (R90). -/
def Asm.wf : Asm → Bool
  | .bwr sa rg data => Asm.saInRange sa && Asm.byteInRange rg && Asm.byteInRange data
  | .brd sa rg ctx => Asm.saInRange sa && Asm.byteInRange rg && Asm.byteInRange ctx
  | .brdN sa rg => Asm.saInRange sa && Asm.byteInRange rg
  | .brdNCtx sa rg ctx => Asm.saInRange sa && Asm.byteInRange rg && Asm.byteInRange ctx
  | .svc => true
  | .ptc => true
  | .pbb => true
  | .pmm => true

end Sys2Proof
end

