-- ==== Sys2Proof/Decode.lean ====
section
/-! DEFINITION. The decoder of command words (R80 to R87, R93) and of the service step (R89), the encoder beside it
(R91), the numbering of spec/opcode_table.json, and the assembler (R90). -/

namespace Sys2Proof

/-- The bit a direction is encoded as: Write 0, Read 1 (R22). -/
def Dir.bit : Dir → BitVec 1
  | .write => 0#1
  | .read => 1#1

/-- The direction a bit stands for (R22). -/
def Dir.ofBit (b : Bool) : Dir := if b then .read else .write

/-- The 3-bit encoding of STATE (R21). -/
def ProtoState.code : ProtoState → BitVec 3
  | .aw => 0#3
  | .cw => 1#3
  | .dw => 2#3
  | .wd => 3#3
  | .ar => 4#3
  | .rs => 5#3
  | .dr => 6#3
  | .noState => 7#3

/-- The state a 3-bit value names (R21); only 7 is left for the last case. -/
def ProtoState.ofCode (v : BitVec 3) : ProtoState :=
  match v.toNat with
  | 0 => .aw
  | 1 => .cw
  | 2 => .dw
  | 3 => .wd
  | 4 => .ar
  | 5 => .rs
  | 6 => .dr
  | _ => .noState

/-- The 3-bit result code (R200). -/
def ResultCode.code : ResultCode → BitVec 3
  | .ok => 0#3
  | .busBusy => 1#3
  | .transferNotComplete => 2#3
  | .masterModeStillSet => 3#3
  | .hardwareTimeout => 4#3
  | .acknowledgeMissing => 5#3
  | .unexpectedProtocolState => 6#3
  | .neverWritten => 7#3

/-- `v[hi:lo]` of a host word, where the width `n` is hi-lo+1 (R10). -/
def Word.bits (w : Word) (lo n : Nat) : BitVec n := w.extractLsb' lo n

/-- OP = w[3:0] (R81). -/
def Word.op (w : Word) : BitVec 4 := Word.bits w 0 4

/-- SA = w[10:4] (R81, R83). -/
def Word.fieldSA (w : Word) : SlaveAddr := Word.bits w 4 7

/-- RG = w[18:11] (R81, R84). -/
def Word.fieldRG (w : Word) : Byte := Word.bits w 11 8

/-- DT = w[26:19] (R81, R85). -/
def Word.fieldDT (w : Word) : Byte := Word.bits w 19 8

/-- ARM = w[27] (R81, R86). -/
def Word.fieldARM (w : Word) : Bool := w.getLsbD 27

/-- The must-be-zero bits of BWR are [31:27], of BRD [31:28], of the others [31:4] (R87): the bits of the word from
the given position up are all 0. -/
def Word.zeroFrom (w : Word) (lo : Nat) : Bool := (w >>> lo) == 0#32

/-- A command without operands: its word is its OP alone (R87). -/
def decodeBare (w : Word) (i : Instr) : Except Reserved Instr :=
  if Word.zeroFrom w 4 then .ok i else .error (.mustBeZero (Word.op w))

/-- The command a word written to CMD encodes (R82), or why it is reserved (R93). -/
def decodeCmd (w : Word) : Except Reserved Instr :=
  match (Word.op w).toNat with
  | 1 =>
    if Word.zeroFrom w 27 then .ok (.bwr (Word.fieldSA w) (Word.fieldRG w) (Word.fieldDT w))
    else .error (.mustBeZero (Word.op w))
  | 2 =>
    if Word.zeroFrom w 28 then .ok (.brd (Word.fieldSA w) (Word.fieldRG w) (Word.fieldDT w) (Word.fieldARM w))
    else .error (.mustBeZero (Word.op w))
  | 3 => decodeBare w .svc
  | 4 => decodeBare w .ptc
  | 5 => decodeBare w .pbb
  | 6 => decodeBare w .pmm
  | _ => .error (.op (Word.op w))

/-- The step an SVC with PEND = 1 selects from {DIR, STATE} (R89, R123): the whole table. -/
def decodeStep : Dir → ProtoState → StepRow
  | .write, .aw => .t1 .write
  | .write, .cw => .t2
  | .write, .dw => .t3
  | .write, .wd => .t4
  | .write, .ar => .uxWrite 0#2
  | .write, .rs => .uxWrite 1#2
  | .write, .dr => .uxWrite 2#2
  | .write, .noState => .uxWrite 3#2
  | .read, .aw => .t1 .read
  | .read, .cw => .t5
  | .read, .dw => .uxRead 0#1
  | .read, .wd => .uxRead 1#1
  | .read, .ar => .t6
  | .read, .rs => .t7
  | .read, .dr => .t8
  | .read, .noState => .uxReadSeven

/-- DIR is bit 3 of the 4-bit vector {DIR, STATE} (R89). -/
def vecDir (v : BitVec 4) : Dir := Dir.ofBit (v.getLsbD 3)

/-- STATE is bits [2:0] of the 4-bit vector {DIR, STATE} (R89). -/
def vecState (v : BitVec 4) : ProtoState := ProtoState.ofCode (v.extractLsb' 0 3)

/-- The vector {DIR, STATE}, with DIR as bit 3 (R89). -/
def dirStateVec (d : Dir) (p : ProtoState) : BitVec 4 := d.bit ++ p.code

/-- The row a 4-bit vector selects (R89). -/
def decodeStepVec (v : BitVec 4) : StepRow := decodeStep (vecDir v) (vecState v)

/-- Decoding in either format; total. -/
def decode : Code → Except Reserved Instr
  | .cmd w => decodeCmd w
  | .step v => .ok (decodeStepVec v).toInstr

/-- `w = OP | SA << 4 | RG << 11 | DT << 19 | ARM << 27` (R91). -/
def packCmd (op : BitVec 4) (sa : SlaveAddr) (rg dt : Byte) (arm : Bool) : Word :=
  op.zeroExtend 32 ||| sa.zeroExtend 32 <<< 4 ||| rg.zeroExtend 32 <<< 11 ||| dt.zeroExtend 32 <<< 19
    ||| (BitVec.ofBool arm).zeroExtend 32 <<< 27

/-- The encoding of an instruction in its own format (R90, R91; R89 for the rows of the service step). -/
def encode : Instr → Code
  | .bwr sa rg data => .cmd (packCmd 1#4 sa rg data false)
  | .brd sa rg ctx arm => .cmd (packCmd 2#4 sa rg ctx arm)
  | .svc => .cmd 3#32
  | .ptc => .cmd 4#32
  | .pbb => .cmd 5#32
  | .pmm => .cmd 6#32
  | .t1 dir => .step (dir.bit ++ 0b000#3)
  | .t2 => .step 0b0001#4
  | .t3 => .step 0b0010#4
  | .t4 => .step 0b0011#4
  | .t5 => .step 0b1001#4
  | .t6 => .step 0b1100#4
  | .t7 => .step 0b1101#4
  | .t8 => .step 0b1110#4
  | .uxWrite low => .step (0b01#2 ++ low)
  | .uxRead low => .step (0b101#3 ++ low)
  | .uxReadSeven => .step 0b1111#4

/-- How many bits a format has in whole bytes, as spec/opcode_table.json numbers its rows: a command word is 32 bits,
a `STEP` vector of 4 bits takes one byte. -/
def Code.nbits : Code → Nat
  | .cmd _ => 32
  | .step _ => 8

/-- The bits of an encoding as a number, bit 0 the least significant. -/
def Code.toNat : Code → Nat
  | .cmd w => w.toNat
  | .step v => v.toNat

/-- An instruction whose bits are `w`, `nbits` of them in whole bytes, as an encoding: one byte is a `STEP` vector with
its upper four bits 0, four bytes a command word. -/
def tableCode (nbits w : Nat) : Option Code :=
  if nbits ≤ 8 then
    if w < 16 then some (.step (BitVec.ofNat 4 w)) else none
  else if nbits ≤ 32 then
    if w < 2 ^ 32 then some (.cmd (BitVec.ofNat 32 w)) else none
  else none

/-- What a decoder's answer is worth as an instruction. -/
def acceptedInstr : Except Reserved Instr → Option Instr
  | .ok i => some i
  | .error _ => none

/-- The instruction the decoder reads from a row's bits as spec/opcode_table.json numbers them. -/
def decodeTableWord (nbits w : Nat) : Option Instr :=
  match tableCode nbits w with
  | some c => acceptedInstr (decode c)
  | none => none

/-- The instruction an assembler line stands for (R90), its numbers cut to their fields' widths. -/
def Asm.toInstr : Asm → Instr
  | .bwr sa rg data => .bwr (BitVec.ofNat 7 sa) (BitVec.ofNat 8 rg) (BitVec.ofNat 8 data)
  | .brd sa rg ctx => .brd (BitVec.ofNat 7 sa) (BitVec.ofNat 8 rg) (BitVec.ofNat 8 ctx) true
  | .brdN sa rg => .brd (BitVec.ofNat 7 sa) (BitVec.ofNat 8 rg) 0#8 false
  | .brdNCtx sa rg ctx => .brd (BitVec.ofNat 7 sa) (BitVec.ofNat 8 rg) (BitVec.ofNat 8 ctx) false
  | .svc => .svc
  | .ptc => .ptc
  | .pbb => .pbb
  | .pmm => .pmm

/-- The command word of an encoding; a `STEP` vector is none. -/
def Code.word? : Code → Option Word
  | .cmd w => some w
  | .step _ => none

/-- The word an assembler line makes, or none where an operand is out of range (R90). -/
def assemble (a : Asm) : Option Word := if a.wf then (encode a.toInstr).word? else none

end Sys2Proof
end

