-- ==== Sys2Proof/Machine/State.lean ====
section
/-! DEFINITION. The machine's state: the fields of R20, the two output streams (R60), and the block's ports held as
plain data (INVENTORY.md, State). -/

namespace Sys2Proof.Machine

/-- What a host access does (R11). -/
inductive AccessOp where
  | read
  | write (v : Word)
  deriving DecidableEq, Repr

/-- One host access. `off` is the host address relative to `BASE`, as R61 gives all offsets; `Access.memRead` and
`Access.memWrite` make it from an address. `width` is in bytes (log 3, log 17). -/
structure Access where
  op : AccessOp
  off : Int
  width : Nat
  deriving DecidableEq, Repr

/-- One completion event (ctx, b) (R33). -/
structure Completion where
  ctx : Byte
  byte : Byte
  deriving DecidableEq, Repr

/-- One draw from the adapter and its answer (R43). -/
inductive Draw where
  /-- `sample(FLAG)` answered `b` -/
  | flag (f : Flag) (b : Bool)
  /-- `BA(READ)` returned `b` -/
  | byte (b : Byte)
  deriving DecidableEq, Repr

/-- The state. The first eleven fields are R20's, "exactly these"; then the output streams of R60; the last five are
the model's own: the ports of host and adapter (log 1, log 2, log 7, log 8). -/
structure State where
  /-- `STATE` (R21) -/
  state : ProtoState
  /-- `DIR` (R22) -/
  dir : Dir
  /-- `SA` (R23) -/
  sa : SlaveAddr
  /-- `REG` (R24) -/
  reg : Byte
  /-- `DATA0` (R25) -/
  data0 : Byte
  /-- `ARMED` (R33) -/
  armed : Bool
  /-- `CTX` (R33) -/
  ctx : Byte
  /-- `ACTIVE` (R26) -/
  active : Bool
  /-- `RESULT` (R30) -/
  result : ResultCode
  /-- `TO` (R31) -/
  tmo : Bool
  /-- `PRB` (R32) -/
  prb : Bool
  /-- the bus-action history, oldest first (R11) -/
  busHistory : List BusAction
  /-- the completion output stream, oldest first (R33) -/
  events : List Completion
  /-- input: the host accesses that have not reached the block, in their order (R66) -/
  accesses : List Access
  /-- output: the words host reads returned, oldest first (R61) -/
  readData : List Word
  /-- input: the adapter's next flag answers; past their end an answer is `Config.freeFlag` (R43) -/
  flagAnswers : List Bool
  /-- input: the bytes the adapter's next READs return; past their end a byte is `Config.freeByte` (R43) -/
  byteAnswers : List Byte
  /-- every draw taken, oldest first (R43); its length is the counter the free values are read at -/
  draws : List Draw
  deriving DecidableEq, Repr

/-- Why the machine stops with a fault. -/
inductive Fault where
  /-- The access's address is outside `BASE` to `BASE + 0x0F`: "not the block's" (R61). Raised by the register window;
  safe, the block's state after it is simply not described (log 3). -/
  | outsideWindow
  deriving DecidableEq, Repr

/-- Why the machine gives something no meaning. -/
inductive Refusal where
  /-- An instruction that has no meaning in the model yet: raised by no arm now; safe. -/
  | notModelled (mnemonic : String)
  /-- The word written to CMD is reserved (R93, I1). Raised by the register window; safe (log 5). -/
  | reservedCommand (why : Reserved)
  /-- The access is not an aligned 32-bit word (R62, I4). Raised by the register window; safe (log 4). -/
  | reservedAccess
  deriving DecidableEq, Repr

/-- Reset (R47, R230, R231): the whole packet zero, STATE = AddressWrite, ACTIVE, RESULT, TO and PRB 0, both streams
empty. The model's own fields are empty: DESIGN CHOICE (log 11). -/
def State.reset : State where
  state := .aw
  dir := .write
  sa := 0#7
  reg := 0#8
  data0 := 0#8
  armed := false
  ctx := 0#8
  active := false
  result := .ok
  tmo := false
  prb := false
  busHistory := []
  events := []
  accesses := []
  readData := []
  flagAnswers := []
  byteAnswers := []
  draws := []

end Sys2Proof.Machine
end

