-- ==== Sys2Proof/Machine/Flags.lean ====
section
/-! DEFINITION. The conditions the engine computes from its state: idle, recognised, TERMINAL, PEND and `irq`
(R27 to R29, R44). The block has no arithmetic flags (R96). -/

namespace Sys2Proof.Machine

/-- Idle: `STATE = 0` and `ACTIVE = 0` (R27). -/
def idle (s : State) : Bool := s.state == .aw && !s.active

/-- In flight: `ACTIVE = 1` (R27). -/
def inFlight (s : State) : Bool := s.active

/-- The recognised pairs (R28): Write with AW, CW, DW, WD; Read with AW, CW, AR, RS, DR. -/
def recognised : Dir → ProtoState → Bool
  | .write, .aw => true
  | .write, .cw => true
  | .write, .dw => true
  | .write, .wd => true
  | .write, .ar => false
  | .write, .rs => false
  | .write, .dr => false
  | .write, .noState => false
  | .read, .aw => true
  | .read, .cw => true
  | .read, .dw => false
  | .read, .wd => false
  | .read, .ar => true
  | .read, .rs => true
  | .read, .dr => true
  | .read, .noState => false

/-- TERMINAL: WriteDone of a write, DataRead of a read, or an unrecognised pair (R29). -/
def terminal (d : Dir) (p : ProtoState) : Bool :=
  (d == .write && p == .wd) || (d == .read && p == .dr) || !recognised d p

/-- PEND for the one IICIF sample `iif`; with ACTIVE = 0 it is 0 whatever the flag (R29). -/
def pend (s : State) (iif : Bool) : Bool := s.active && (iif || terminal s.dir s.state)

/-- The interrupt output line, whose value is PEND; unmasked (R44, R213). -/
def irq (s : State) (iif : Bool) : Bool := pend s iif

end Sys2Proof.Machine
end

