-- ==== Sys2Proof/Machine/Operands.lean ====
section
/-! DEFINITION. The operand and register forms the block computes: the address byte (R88), the STATUS and PACKET words
(R36, R37). -/

namespace Sys2Proof.Machine

/-- `addr_byte(rw) = ((zext_8(SA) << 1) | rw)[7:0]`, rw = 0 for write and 1 for read (R88). -/
def addrByte (sa : SlaveAddr) (rw : Dir) : Byte := sa.zeroExtend 8 <<< 1 ||| rw.bit.zeroExtend 8

/-- The STATUS word for a PEND computed at the read (R36). Written from bit 31 down to bit 0. -/
def statusWord (s : State) (pend : Bool) : Word :=
  0#20 ++ BitVec.ofBool s.tmo ++ s.result.code ++ BitVec.ofBool s.prb ++ BitVec.ofBool s.armed ++ BitVec.ofBool pend
    ++ BitVec.ofBool s.active ++ s.dir.bit ++ s.state.code

/-- The PACKET word: [6:0] SA, [7] 0, [15:8] REG, [23:16] DATA0, [31:24] CTX (R37). -/
def packetWord (s : State) : Word := s.ctx ++ s.data0 ++ s.reg ++ 0#1 ++ s.sa

end Sys2Proof.Machine
end

