-- ==== Sys2Proof/Machine/Ops.lean ====
section
/-! DEFINITION. The primitives of R11 and the operations several commands share: sampling, bus actions, completion,
report, the bounded busy-wait (R160), the recovery (R211), and the host's accesses and register reads (R61). -/

namespace Sys2Proof.Machine

/-- The adapter's answer to the sample taken after `k` more draws, if it is of flag `f`: the `k`-th answer given as
input, or past the inputs a free value of its own (R43, log 1). -/
def State.flagAt (s : State) (f : Flag) (k : Nat) : Bool :=
  match s.flagAnswers[k]? with
  | some b => b
  | none => Config.freeFlag f (s.draws.length + k)

/-- The state after a sample of `f`: its answer is used up and recorded; no field of the engine changes. -/
def State.drawFlag (s : State) (f : Flag) : State :=
  { s with flagAnswers := s.flagAnswers.tail, draws := s.draws ++ [.flag f (s.flagAt f 0)] }

/-- `sample(FLAG)`: the answer, and the state after it (R11, R43). -/
def sample (f : Flag) (s : State) : Bool × State := (s.flagAt f 0, s.drawFlag f)

/-- `BA(action)`: the action is appended to the bus-action history (R11, R41). -/
def busAct (a : BusAction) (s : State) : State := { s with busHistory := s.busHistory ++ [a] }

/-- The byte the adapter returns to the next READ (R43). -/
def State.byteNext (s : State) : Byte :=
  match s.byteAnswers with
  | b :: _ => b
  | [] => Config.freeByte s.draws.length

/-- `BA(READ)`: the byte returned, and the state with the action in the history and the byte drawn (R11). -/
def busRead (s : State) : Byte × State :=
  (s.byteNext,
    { s with busHistory := s.busHistory ++ [.read], byteAnswers := s.byteAnswers.tail,
             draws := s.draws ++ [.byte s.byteNext] })

/-- `emit_completion(ctx, b)`: the event is appended to the completion stream (R11), then `ARMED <- 0` (R33). -/
def emitCompletion (c b : Byte) (s : State) : State :=
  { s with events := s.events ++ [⟨c, b⟩], armed := false }

/-- `report(code)` is `RESULT <- code` (R201). -/
def report (code : ResultCode) (s : State) : State := { s with result := code }

/-- How a bounded busy-wait ends (R160). -/
inductive ProbeEnd where
  | ready
  | timedOut
  deriving DecidableEq, Repr

/-- `probe(FLAG, ready)` with `limit` samples left: it stops at the first sample equal to `ready` (R160). The count is
this recursion's own and no state (R39). -/
def probe : Nat → Flag → Bool → State → ProbeEnd × State
  | 0, _, _, s => (.timedOut, s)
  | limit + 1, f, ready, s =>
    if (sample f s).1 == ready then (.ready, (sample f s).2) else probe limit f ready (sample f s).2

/-- The recovery of R211, the block's only analogue of taking an exception (R210): one STOP, `STATE <- AW`,
`ACTIVE <- 0`, `ARMED <- 0`, the code in RESULT; nothing else. It has no return (R212). -/
def recover (code : ResultCode) (s : State) : State :=
  report code { busAct .stop s with state := .aw, active := false, armed := false }

/-- `MemRead(addr, width)` as the block sees it, for a window at `base` (R11, R61). -/
def Access.memRead (base addr width : Nat) : Access := ⟨.read, (addr : Int) - (base : Int), width⟩

/-- `MemWrite(addr, width, v)` as the block sees it (R11, R61). -/
def Access.memWrite (base addr width : Nat) (v : Word) : Access := ⟨.write v, (addr : Int) - (base : Int), width⟩

/-- `WR CMD, w` (R12): the aligned word write to offset 0x00 that runs a command (R64). -/
def Access.cmd (w : Word) : Access := ⟨.write w, 0, 4⟩

/-- Whether the access's address is in `BASE` to `BASE + 0x0F` (R61). -/
def Access.inWindow (a : Access) : Bool := decide (0 ≤ a.off) && decide (a.off < 16)

/-- Whether the access is one aligned 32-bit word (R62). `BASE` is a multiple of 16 (R8), so the address is a multiple
of 4 exactly when the offset is. -/
def Access.isAlignedWord (a : Access) : Bool := a.width == 4 && a.off % 4 == 0

/-- What a read of STATUS gives, and the state after it: one IICIF sample when ACTIVE = 1, none otherwise (R63). -/
def readStatus (s : State) : Word × State :=
  if s.active then (statusWord s (pend s (sample .iicif s).1), (sample .iicif s).2) else (statusWord s false, s)

/-- What an aligned word read of the window gives, and the state after it (R61, R63). CMD and the reserved word
read 0. -/
def readWindow (off : Int) (s : State) : Word × State :=
  if off == 4 then readStatus s
  else if off == 8 then (packetWord s, s)
  else (0#32, s)

/-- A value goes back to the host (log 7). -/
def giveHost (r : Word × State) : State := { r.2 with readData := r.2.readData ++ [r.1] }

end Sys2Proof.Machine
end

