-- ==== Sys2Proof/Machine/Begin.lean ====
section
/-! DEFINITION. The transaction start: the precondition validator (R100 to R104) and the commands BWR and BRD
(R105 to R107). The operations take `PROBE_LIMIT` as an argument (R9); the meanings give them `Config.probeLimit`. -/

namespace Sys2Proof.Machine

/-- What `check_start` returns (R100): the code, the timed-out bit, and the state after its samples. -/
structure CheckResult where
  code : ResultCode
  tmo : Bool
  after : State
  deriving DecidableEq, Repr

/-- Check (3): master-mode flag not already set (R103). -/
def checkMaster (limit : Nat) (s : State) : CheckResult :=
  match probe limit .mst false s with
  | (.timedOut, s') => ⟨.masterModeStillSet, true, s'⟩
  | (.ready, s') => ⟨.ok, false, s'⟩

/-- Check (2): bus not busy (R102), then check (3). -/
def checkBus (limit : Nat) (s : State) : CheckResult :=
  match probe limit .busy false s with
  | (.timedOut, s') => ⟨.busBusy, true, s'⟩
  | (.ready, s') => checkMaster limit s'

/-- `check_start`: check (1) in its two parts (R101), then check (2) and check (3). The first failing check ends it
(R100, R208). -/
def checkStart (limit : Nat) (s : State) : CheckResult :=
  if s.active then ⟨.transferNotComplete, false, s⟩
  else
    match probe limit .tcf true s with
    | (.timedOut, s') => ⟨.transferNotComplete, true, s'⟩
    | (.ready, s') => checkBus limit s'

/-- `reject(code, t)`: RESULT and TO, nothing else (R104). -/
def reject (code : ResultCode) (t : Bool) (s : State) : State := { report code s with tmo := t }

/-- `start_bus`: CLRIF, TX, START, and the write-address byte (R107). -/
def startBus (s : State) : State :=
  busAct (.write (addrByte s.sa .write)) (busAct .start (busAct .tx (busAct .clrif s)))

/-- A begin: `check_start`, and then the rejection or the acceptance (R105, R106). -/
def beginWith (limit : Nat) (accept : State → State) (s : State) : State :=
  let c := checkStart limit s
  if c.code == .ok then accept c.after else reject c.code c.tmo c.after

/-- An accepted BWR (R105). -/
def acceptWrite (sa : SlaveAddr) (rg data : Byte) (s : State) : State :=
  { startBus { s with sa := sa, reg := rg, data0 := data, dir := .write, state := .aw, armed := false, ctx := 0#8,
                      active := true } with
    result := .ok, tmo := false }

/-- An accepted BRD; DATA0 keeps its value (R106). -/
def acceptRead (sa : SlaveAddr) (rg ctx : Byte) (arm : Bool) (s : State) : State :=
  { startBus { s with sa := sa, reg := rg, dir := .read, state := .aw, armed := arm, ctx := ctx, active := true } with
    result := .ok, tmo := false }

/-- BWR (R105). -/
def execBwr (sa : SlaveAddr) (rg data : Byte) (s : State) : Host.Outcome State Fault Refusal :=
  .next (beginWith Config.probeLimit (acceptWrite sa rg data) s)

/-- BRD (R106). -/
def execBrd (sa : SlaveAddr) (rg ctx : Byte) (arm : Bool) (s : State) : Host.Outcome State Fault Refusal :=
  .next (beginWith Config.probeLimit (acceptRead sa rg ctx arm) s)

end Sys2Proof.Machine
end

