-- ==== Sys2Proof/Machine/Probes.lean ====
section
/-! DEFINITION. The stand-alone probes PTC, PBB and PMM (R161 to R165). -/

namespace Sys2Proof.Machine

/-- A stand-alone probe: PRB is `onReady` when it ends Ready and the opposite when it times out (R165); RESULT and TO
report the end (R161 to R163). Nothing else is written (R164). -/
def probeCommand (limit : Nat) (f : Flag) (ready onReady : Bool) (s : State) : State :=
  match probe limit f ready s with
  | (.ready, s') => { s' with prb := onReady, result := .ok, tmo := false }
  | (.timedOut, s') => { s' with prb := !onReady, result := .hardwareTimeout, tmo := true }

/-- PTC: is the transfer complete (R161). -/
def execPtc (s : State) : Host.Outcome State Fault Refusal := .next (probeCommand Config.probeLimit .tcf true true s)

/-- PBB: is the bus busy (R162). -/
def execPbb (s : State) : Host.Outcome State Fault Refusal := .next (probeCommand Config.probeLimit .busy false false s)

/-- PMM: is master mode active (R163). -/
def execPmm (s : State) : Host.Outcome State Fault Refusal := .next (probeCommand Config.probeLimit .mst false false s)

end Sys2Proof.Machine
end

