-- ==== Sys2Proof/Machine/Service.lean ====
section
/-! DEFINITION. The service step: SVC (R120 to R122), the acknowledge detector and its recovery (R124, R125), and the
rows T1 to T8 and UX (R126 to R134). A row's meaning is the row's own pseudocode, run on the state the prelude of a
pending SVC leaves (log 9). -/

namespace Sys2Proof.Machine

/-- Ack-missing recovery (R125). -/
def nackRecover (s : State) : State := recover .acknowledgeMissing s

/-- `if not ack_ok(): nack_recover(); return`, then the row: ACKED is sampled once (R124). -/
def withAck (row : State → State) (s : State) : State :=
  if (sample .acked s).1 then row (sample .acked s).2 else nackRecover (sample .acked s).2

/-- A row's last two writes: the state it enters, and `RESULT <- None`. -/
def enter (p : ProtoState) (s : State) : State := report .ok { s with state := p }

/-- The end of a transaction that succeeded: `STATE <- AW`, `ACTIVE <- 0`, `ARMED <- 0`, `RESULT <- None` (R129, R133). -/
def finish (s : State) : State := enter .aw { s with active := false, armed := false }

/-- T1, either direction (R126). -/
def rowT1 (s : State) : State := withAck (fun s => enter .cw (busAct (.write s.reg) s)) s

/-- T2 (R127). -/
def rowT2 (s : State) : State := withAck (fun s => enter .dw (busAct (.write s.data0) s)) s

/-- T3 (R128). -/
def rowT3 (s : State) : State := withAck (enter .wd) s

/-- T4 (R129). -/
def rowT4 (s : State) : State := finish (busAct .stop s)

/-- T5: repeated start and the read-address byte (R130). -/
def rowT5 (s : State) : State :=
  withAck (fun s => enter .ar (busAct (.write (addrByte s.sa .read)) (busAct .rstart s))) s

/-- T6: receive, and a dummy READ whose byte is discarded (R131). -/
def rowT6 (s : State) : State := withAck (fun s => enter .rs (busRead (busAct .rx s)).2) s

/-- The captured byte goes to the completion, if one is armed (R132). -/
def deliver (b : Byte) (s : State) : State := if s.armed then emitCompletion s.ctx b s else s

/-- T7: READ, STOP, TX; DATA0 and STATE; the completion; RESULT (R132). -/
def rowT7 (s : State) : State :=
  report .ok
    (deliver (busRead s).1
      { busAct .tx (busAct .stop (busRead s).2) with data0 := (busRead s).1, state := .dr })

/-- T8 (R133). -/
def rowT8 (s : State) : State := finish s

/-- UX: unexpected-state recovery (R134). -/
def rowUx (s : State) : State := recover .unexpectedProtocolState s

/-- T1 (R126). -/
def execT1 (_dir : Dir) (s : State) : Host.Outcome State Fault Refusal := .next (rowT1 s)

/-- T2 (R127). -/
def execT2 (s : State) : Host.Outcome State Fault Refusal := .next (rowT2 s)

/-- T3 (R128). -/
def execT3 (s : State) : Host.Outcome State Fault Refusal := .next (rowT3 s)

/-- T4 (R129). -/
def execT4 (s : State) : Host.Outcome State Fault Refusal := .next (rowT4 s)

/-- T5 (R130). -/
def execT5 (s : State) : Host.Outcome State Fault Refusal := .next (rowT5 s)

/-- T6 (R131). -/
def execT6 (s : State) : Host.Outcome State Fault Refusal := .next (rowT6 s)

/-- T7 (R132). -/
def execT7 (s : State) : Host.Outcome State Fault Refusal := .next (rowT7 s)

/-- T8 (R133). -/
def execT8 (s : State) : Host.Outcome State Fault Refusal := .next (rowT8 s)

/-- UX, Write with STATE 4 to 7 (R134). -/
def execUxWrite (_low : BitVec 2) (s : State) : Host.Outcome State Fault Refusal := .next (rowUx s)

/-- UX, Read with STATE 2 or 3 (R134). -/
def execUxRead (_low : BitVec 1) (s : State) : Host.Outcome State Fault Refusal := .next (rowUx s)

/-- UX, Read with STATE 7 (R134). -/
def execUxReadSeven (s : State) : Host.Outcome State Fault Refusal := .next (rowUx s)

/-- `step({DIR, STATE})`: exactly one row (R123). -/
def runRow : StepRow → State → State
  | .t1 _, s => rowT1 s
  | .t2, s => rowT2 s
  | .t3, s => rowT3 s
  | .t4, s => rowT4 s
  | .t5, s => rowT5 s
  | .t6, s => rowT6 s
  | .t7, s => rowT7 s
  | .t8, s => rowT8 s
  | .uxWrite _, s => rowUx s
  | .uxRead _, s => rowUx s
  | .uxReadSeven, s => rowUx s

/-- `if sample(ARBL) = 1: BA(CLRARB)`; nothing else follows from arbitration loss (R122). -/
def clearArbitration (s : State) : State :=
  if (sample .arbl s).1 then busAct .clrarb (sample .arbl s).2 else (sample .arbl s).2

/-- `if iif = 1: BA(CLRIF)` (R122). -/
def clearInterrupt (iif : Bool) (s : State) : State := if iif then busAct .clrif s else s

/-- The prelude of a pending SVC, for the PEND sample it took (R122). -/
def prelude (iif : Bool) (s : State) : State := clearArbitration (clearInterrupt iif s)

/-- SVC's effect (R120): not pending, no effect but the one sample (R121); pending, the prelude and one row. -/
def service (s : State) : State :=
  if s.active then
    if pend s (sample .iicif s).1 then
      runRow (decodeStep s.dir s.state) (prelude (sample .iicif s).1 (sample .iicif s).2)
    else (sample .iicif s).2
  else s

/-- SVC (R120). -/
def execSvc (s : State) : Host.Outcome State Fault Refusal := .next (service s)

end Sys2Proof.Machine
end

