-- ==== Sys2Proof/Machine/Dispatch.lean ====
section
/-! DEFINITION. One arm per constructor of `Instr`. -/

namespace Sys2Proof.Machine

def exec (i : Instr) (s : State) : Host.Outcome State Fault Refusal :=
  match i with
  | .bwr sa rg data => Sys2Proof.Machine.execBwr sa rg data s
  | .brd sa rg ctx arm => Sys2Proof.Machine.execBrd sa rg ctx arm s
  | .svc => Sys2Proof.Machine.execSvc s
  | .ptc => Sys2Proof.Machine.execPtc s
  | .pbb => Sys2Proof.Machine.execPbb s
  | .pmm => Sys2Proof.Machine.execPmm s
  | .t1 dir => Sys2Proof.Machine.execT1 dir s
  | .t2 => Sys2Proof.Machine.execT2 s
  | .t3 => Sys2Proof.Machine.execT3 s
  | .t4 => Sys2Proof.Machine.execT4 s
  | .t5 => Sys2Proof.Machine.execT5 s
  | .t6 => Sys2Proof.Machine.execT6 s
  | .t7 => Sys2Proof.Machine.execT7 s
  | .t8 => Sys2Proof.Machine.execT8 s
  | .uxWrite low => Sys2Proof.Machine.execUxWrite low s
  | .uxRead low => Sys2Proof.Machine.execUxRead low s
  | .uxReadSeven => Sys2Proof.Machine.execUxReadSeven s

end Sys2Proof.Machine
end

