-- ==== Sys2Proof/Machine/Bus.lean ====
section
/-! DEFINITION. The host command port: what one host access does to the block (R61 to R64). This is how a command comes
to run (R72): a word takes effect when it is written to CMD. -/

namespace Sys2Proof.Machine

/-- A write to CMD runs the command the word encodes, unless it is refused (R64, R93). -/
def writeCommand (w : Word) (s : State) : Host.Outcome State Fault Refusal :=
  match decodeCmd w with
  | .ok i => exec i s
  | .error why => .refused (.reservedCommand why)

/-- An aligned word access to the window (R61): a write to anything but CMD is ignored (R64). -/
def wordAccess (a : Access) (s : State) : Host.Outcome State Fault Refusal :=
  match a.op with
  | .read => .next (giveHost (readWindow a.off s))
  | .write v => if a.off == 0 then writeCommand v s else .next s

/-- One host access: outside the window it is not the block's (R61); inside, anything but an aligned 32-bit word is
reserved and refused (R62). -/
def hostAccess (a : Access) (s : State) : Host.Outcome State Fault Refusal :=
  if a.inWindow then
    if a.isAlignedWord then wordAccess a s else .refused .reservedAccess
  else .fault .outsideWindow

/-- The next access of the host's total order reaches the block and runs to completion (R66). With none waiting the
block's state holds its value (R221). -/
def stepAccess (s : State) : Host.Outcome State Fault Refusal :=
  match s.accesses with
  | [] => .next s
  | a :: rest => hostAccess a { s with accesses := rest }

/-- The next access is the host writing the command word `w` to CMD. -/
def State.withCommand (s : State) (w : Word) : State := { s with accesses := Access.cmd w :: s.accesses }

/-- The next step is an SVC that selects the row of the vector {DIR, STATE}: the engine is in flight in that pair, the
adapter answers 1 to the PEND sample, and the host writes SVC (R89, R120). -/
def State.withStepVec (s : State) (v : BitVec 4) : State :=
  State.withCommand
    { s with dir := vecDir v, state := vecState v, active := true, flagAnswers := true :: s.flagAnswers } 3#32

/-- The state in which the very next step runs the instruction of this encoding. -/
def State.withCode (s : State) : Option Code → State
  | some (.cmd w) => s.withCommand w
  | some (.step v) => s.withStepVec v
  | none => s

end Sys2Proof.Machine
end

