-- ==== Sys2Proof/Machine/Step.lean ====
section
/-! DEFINITION. One step of the machine: one host access (R66). -/

namespace Sys2Proof.Machine

/-- One step: the next host access, run to completion. -/
def step (s : State) : Host.Outcome State Fault Refusal := stepAccess s

/-- The state `s` in which the very next step runs the instruction whose bits are `w` (log 10): a command word is the
next host access; a `STEP` vector is the pair the next SVC finds. -/
def State.withFetchWord (s : State) (nbits w : Nat) : State := s.withCode (tableCode nbits w)

end Sys2Proof.Machine
end

