-- ==== Sys2Proof/Machine/Client.lean ====
section
/-! DEFINITION. The reference client of 48_client_sequencer.md: host software, NOT part of the block (R6, R170). It
reaches the block only through host accesses and the completion stream, so it stands beside `step` (log 13). Its
register indices are parameters (R171, I11). -/

namespace Sys2Proof.Machine

/-- The client's parameters: `XYZ_DATA_CFG` and `OUT_BASE` (R171). -/
structure ClientParams where
  xyzDataCfg : Byte
  outBase : Byte
  deriving DecidableEq, Repr

/-- The client's phase (R172). -/
inductive ClientPhase where
  | initializing
  | running
  deriving DecidableEq, Repr

/-- The client's state (R172), and `handled`: how many events of the completion stream its handler has run for. -/
structure Client where
  phase : ClientPhase
  step : Nat
  bytes : Vector Byte 6
  handled : Nat
  deriving DecidableEq, Repr

/-- After reset: Initializing, step 0, bytes all 0 (R172). -/
def Client.reset : Client := ⟨.initializing, 0, Vector.replicate 6 0#8, 0⟩

/-- `SLAVE` (R171). -/
def clientSlave : SlaveAddr := 0x1D#7

/-- `CTRL_REG1` (R171). -/
def ctrlReg1 : Byte := 0x2A#8

/-- `INIT[step]` (R171); `step` is 0 or 1 while Initializing. -/
def clientInit (p : ClientParams) (step : Nat) : Byte × Byte :=
  if step == 0 then (ctrlReg1, 0x01#8) else (p.xyzDataCfg, 0x00#8)

/-- The begin the client issues in its phase and step (R173): the register index is computed modulo 256 (R181). -/
def Client.command (p : ClientParams) (c : Client) : Instr :=
  match c.phase with
  | .initializing => .bwr clientSlave (clientInit p c.step).1 (clientInit p c.step).2
  | .running => .brd clientSlave (p.outBase + BitVec.ofNat 8 c.step) (BitVec.ofNat 8 c.step) true

/-- The step counter after an accepted begin (R173). -/
def Client.advance (c : Client) : Client :=
  match c.phase with
  | .initializing => if c.step + 1 == 2 then { c with phase := .running, step := 0 } else { c with step := c.step + 1 }
  | .running => if c.step + 1 == 6 then { c with step := 0 } else { c with step := c.step + 1 }

/-- The completion handler for one event: `if ctx < 6: bytes[ctx] <- b` (R174). -/
def Client.handle (c : Client) (e : Completion) : Client :=
  { c with bytes := c.bytes.setIfInBounds e.ctx.toNat e.byte, handled := c.handled + 1 }

/-- The handler runs for each event the block has emitted and it has not handled (R174). -/
def Client.handleNew (c : Client) (s : State) : Client := (s.events.drop c.handled).foldl Client.handle c

/-- `MemRead(BASE + 0x04, 4)` by the client: the STATUS word, and the block after it. -/
def clientReadStatus (s : State) : Word × State := ((readStatus s).1, giveHost (readStatus s))

/-- The client's idle test on a STATUS word: `st[2:0] = 0 and st[4] = 0` (R173). -/
def statusIdle (st : Word) : Bool := Word.bits st 0 3 == 0#3 && !st.getLsbD 4

/-- The client's acceptance test on a STATUS word: `st[10:8] = 0` (R173). -/
def statusAccepted (st : Word) : Bool := Word.bits st 8 3 == 0#3

/-- After the client's begin: a second STATUS read, and the step advances if the begin was accepted (R173, R176). -/
def Client.afterBegin (c : Client) (s : State) : Client × State :=
  let r := clientReadStatus s
  ((if statusAccepted r.1 then c.advance else c).handleNew r.2, r.2)

/-- A client's outcome from a block's: the client goes on from the next state. -/
def thenClient (o : Host.Outcome State Fault Refusal) (k : State → Client × State) :
    Host.Outcome (Client × State) Fault Refusal :=
  match o with
  | .next s => .next (k s)
  | .fault r => .fault r
  | .refused r => .refused r

/-- The word the client writes: the encoding of its begin. -/
def Client.commandWord (p : ClientParams) (c : Client) : Word :=
  match encode (c.command p) with
  | .cmd w => w
  | .step _ => 0#32

/-- `client_service()` (R173). -/
def Client.service (p : ClientParams) (c : Client) (s : State) : Host.Outcome (Client × State) Fault Refusal :=
  let r := clientReadStatus s
  if statusIdle r.1 then
    thenClient (hostAccess (Access.cmd (c.commandWord p)) r.2) c.afterBegin
  else .next (c, r.2)

/-- One turn of the foreground loop: SVC when PEND, with the handler run for what it emits; then `client_service()`
(R174, R175). -/
def Client.loopTurn (p : ClientParams) (c : Client) (s : State) : Host.Outcome (Client × State) Fault Refusal :=
  let r := clientReadStatus s
  if r.1.getLsbD 5 then
    match hostAccess (Access.cmd 3#32) r.2 with
    | .next s' => Client.service p (c.handleNew s') s'
    | .fault f => .fault f
    | .refused f => .refused f
  else Client.service p c r.2

/-- `n` turns of the loop, stopping at the first fault or refusal. -/
def Client.loop (p : ClientParams) : Nat → Client → State → Host.Outcome (Client × State) Fault Refusal
  | 0, c, s => .next (c, s)
  | n + 1, c, s =>
    match Client.loopTurn p c s with
    | .next r => Client.loop p n r.1 r.2
    | .fault f => .fault f
    | .refused f => .refused f

/-- An axis value: `sext_16({hi, lo})`, the most-significant byte first (R178, R181, C1). -/
def axis (hi lo : Byte) : Int := (hi ++ lo).toInt

/-- The Accelerometer Sample: three signed 16-bit values (R178). -/
structure Sample where
  x : Int
  y : Int
  z : Int
  deriving DecidableEq, Repr

/-- "get current sample": read at any time, not an atomic snapshot (R178, R179). -/
def Client.sample (c : Client) : Sample :=
  ⟨axis c.bytes[0] c.bytes[1], axis c.bytes[2] c.bytes[3], axis c.bytes[4] c.bytes[5]⟩

end Sys2Proof.Machine
end

