-- ==== Sys2Proof/Safety.lean ====
section
/-! DEFINITION. What the claims are stated in: the invariants of R35, the parts of a state, the reachable states, and
runs of commands. -/

namespace Sys2Proof.Machine

/-- The invariants of R35, (a) to (d). -/
structure Inv (s : State) : Prop where
  /-- (a) `ACTIVE = 0` implies `STATE = 0` -/
  idleState : s.active = false → s.state = .aw
  /-- (b) `ACTIVE = 0` implies `ARMED = 0` -/
  idleUnarmed : s.active = false → s.armed = false
  /-- (c) `ACTIVE = 1` implies (`DIR`, `STATE`) is recognised -/
  activeRecognised : s.active = true → recognised s.dir s.state = true
  /-- (d) `DIR = 0` implies `ARMED = 0` -/
  writeUnarmed : s.dir = .write → s.armed = false

/-- The two states have the same engine fields: the eleven of R20. -/
def SameEngine (s t : State) : Prop :=
  t.state = s.state ∧ t.dir = s.dir ∧ t.sa = s.sa ∧ t.reg = s.reg ∧ t.data0 = s.data0 ∧ t.armed = s.armed ∧
    t.ctx = s.ctx ∧ t.active = s.active ∧ t.result = s.result ∧ t.tmo = s.tmo ∧ t.prb = s.prb

/-- The two states have the same Transaction Packet (R13) and ACTIVE: what a probe or a rejection never touches. -/
def SamePacket (s t : State) : Prop :=
  t.state = s.state ∧ t.dir = s.dir ∧ t.sa = s.sa ∧ t.reg = s.reg ∧ t.data0 = s.data0 ∧ t.armed = s.armed ∧
    t.ctx = s.ctx ∧ t.active = s.active

/-- The outside world may put any host accesses and any adapter answers at the ports, and nothing else (R7, R43, R66). -/
def SameButInputs (s t : State) : Prop :=
  ∃ acc fl by', t = { s with accesses := acc, flagAnswers := fl, byteAnswers := by' }

/-- The states reachable from reset by commands (R35), under every host and every adapter. -/
inductive Reachable : State → Prop where
  | reset : Reachable State.reset
  | input {s t : State} : Reachable s → SameButInputs s t → Reachable t
  | step {s t : State} : Reachable s → step s = .next t → Reachable t

/-- The commands of a list run one after the other, each to completion (R66). -/
def runCommands : List Instr → State → Host.Outcome State Fault Refusal
  | [], s => .next s
  | i :: is, s =>
    match exec i s with
    | .next t => runCommands is t
    | .fault r => .fault r
    | .refused r => .refused r

/-- The state after `n` samples of `f`: the answers are used up and recorded in order, and nothing else changes (R43). -/
def State.afterSamples (s : State) (f : Flag) (n : Nat) : State :=
  { s with flagAnswers := s.flagAnswers.drop n,
           draws := s.draws ++ (List.range n).map (fun j => .flag f (s.flagAt f j)) }

/-- The probe's flag is first at `ready` in its sample number `k` (counted from 0), within the limit (R160). -/
def ReadyAt (limit : Nat) (f : Flag) (ready : Bool) (s : State) (k : Nat) : Prop :=
  k < limit ∧ s.flagAt f k = ready ∧ ∀ j, j < k → s.flagAt f j = !ready

/-- The probe's flag is at `ready` in none of `limit` samples (R160). -/
def NeverReady (limit : Nat) (f : Flag) (ready : Bool) (s : State) : Prop :=
  ∀ j, j < limit → s.flagAt f j = !ready

/-- After check (1)'s probe, Ready at its sample number `k₁` (R100). -/
def State.afterTcf (s : State) (k₁ : Nat) : State := s.afterSamples .tcf (k₁ + 1)

/-- After the probes of checks (1) and (2), Ready at `k₁` and `k₂` (R100). -/
def State.afterBusy (s : State) (k₁ k₂ : Nat) : State := (s.afterTcf k₁).afterSamples .busy (k₂ + 1)

/-- After the probes of all three checks (R100). -/
def State.afterMst (s : State) (k₁ k₂ k₃ : Nat) : State := (s.afterBusy k₁ k₂).afterSamples .mst (k₃ + 1)

/-- Checks (1) and (2) pass (R100 to R102): nothing in flight, TCF and then BUSY ready within `PROBE_LIMIT` samples. -/
structure BusReady (s : State) (k₁ k₂ : Nat) : Prop where
  notInFlight : s.active = false
  tcf : ReadyAt Config.probeLimit .tcf true s k₁
  busy : ReadyAt Config.probeLimit .busy false (s.afterTcf k₁) k₂

/-- All checks of `check_start` pass (R100 to R103). -/
structure BeginReady (s : State) (k₁ k₂ k₃ : Nat) : Prop extends BusReady s k₁ k₂ where
  mst : ReadyAt Config.probeLimit .mst false (s.afterBusy k₁ k₂) k₃

/-- The command the next host access runs, if it runs one (R64, R72). -/
def nextCommand (s : State) : Option Instr :=
  match s.accesses with
  | [] => none
  | a :: _ =>
    match a.op with
    | .read => none
    | .write w => if a.off == 0 && a.width == 4 then acceptedInstr (decodeCmd w) else none

/-- The begin commands. -/
def isBegin : Instr → Bool
  | .bwr _ _ _ => true
  | .brd _ _ _ _ => true
  | _ => false

/-- The stand-alone probes. -/
def isProbe : Instr → Bool
  | .ptc => true
  | .pbb => true
  | .pmm => true
  | _ => false

end Sys2Proof.Machine
end

