-- ==== Sys2Proof/Certificates/Slice0/Obligations.lean ====
section
/-! DEFINITION. The statements for the provers. Each docstring names the rules of spec/ it formalises. A statement about
adapter answers holds for every answer: `flagAt`, `byteNext` are inputs or free values (log 1). A statement that gives
the next state as a record gives the instruction's whole frame. -/

open Sys2Proof Sys2Proof.Machine

/-! ### Encoding -/

/-- R91: the packing formula, for every operand, and the seven worked encodings. -/
def Obligations.WorkedCommandEncodings : Prop :=
  (∀ (sa : SlaveAddr) (rg data : Byte), encode (.bwr sa rg data) =
    .cmd (1#32 ||| sa.zeroExtend 32 <<< 4 ||| rg.zeroExtend 32 <<< 11 ||| data.zeroExtend 32 <<< 19 ||| 0#32 <<< 27)) ∧
  (∀ (sa : SlaveAddr) (rg ctx : Byte) (arm : Bool), encode (.brd sa rg ctx arm) =
    .cmd (2#32 ||| sa.zeroExtend 32 <<< 4 ||| rg.zeroExtend 32 <<< 11 ||| ctx.zeroExtend 32 <<< 19 |||
      (if arm then 1#32 else 0#32) <<< 27)) ∧
  encode .svc = .cmd 3#32 ∧ encode .ptc = .cmd 4#32 ∧ encode .pbb = .cmd 5#32 ∧ encode .pmm = .cmd 6#32 ∧
  assemble (.bwr 0x1D 0x2A 0x01) = some 0x000951D1#32 ∧
  assemble (.bwr 0x1D 0x0E 0x00) = some 0x000071D1#32 ∧
  assemble (.bwr 0x00 0x00 0x00) = some 0x00000001#32 ∧
  assemble (.bwr 0x7F 0xFF 0xFF) = some 0x07FFFFF1#32 ∧
  assemble (.brd 0x1D 0x01 0x00) = some 0x080009D2#32 ∧
  assemble (.brdN 0x1D 0x01) = some 0x000009D2#32 ∧
  assemble (.brd 0x7F 0xFF 0xFF) = some 0x0FFFFFF2#32

/-- R81, R82, R89, R91: decoding what the encoder makes gives the instruction back, every operand at every value, in
its own format and as spec/opcode_table.json numbers the row. -/
def Obligations.DecodeOfEncode : Prop :=
  ∀ i : Instr, decode (encode i) = .ok i ∧ decodeTableWord (encode i).nbits (encode i).toNat = some i

/-- R81 to R87, R89: each word and each vector has one meaning. What a command word decodes to is a command and encodes
to that word; every 4-bit vector is the encoding of the row it selects. -/
def Obligations.EncodeOfDecode : Prop :=
  (∀ (w : Word) (i : Instr), decodeCmd w = .ok i → encode i = .cmd w ∧ i.isCommand = true) ∧
  (∀ v : BitVec 4, encode (decodeStepVec v).toInstr = .step v ∧ (decodeStepVec v).toInstr.isStepRow = true)

/-- R87, R93: a word is reserved exactly when its OP is 0x0 or 0x7 to 0xF or a must-be-zero bit of its command is 1, and
a reserved word written to CMD is refused. That R93's refusal mark is the outcome `refused` with its reason, which a run
of any length keeps, is the model's own reading (DEDUCED, log 5). -/
def Obligations.ReservedWordsAreRefused : Prop :=
  ∀ w : Word,
    ((∃ why, decodeCmd w = .error why) ↔
      (w.extractLsb' 0 4 = 0#4 ∨ 7 ≤ (w.extractLsb' 0 4).toNat ∨
        (w.extractLsb' 0 4 = 1#4 ∧ w.extractLsb' 27 5 ≠ 0#5) ∨
        (w.extractLsb' 0 4 = 2#4 ∧ w.extractLsb' 28 4 ≠ 0#4) ∨
        (3 ≤ (w.extractLsb' 0 4).toNat ∧ (w.extractLsb' 0 4).toNat ≤ 6 ∧ w.extractLsb' 4 28 ≠ 0#28))) ∧
    (∀ why, decodeCmd w = .error why → ∀ (s : State) (rest : List Access) (n : Nat),
      s.accesses = Access.memWrite Config.base Config.base 4 w :: rest →
      Sys2Proof.core.run (n + 1) s = .refused (.reservedCommand why))

/-- R89: the whole decode of the service step. -/
def Obligations.ServiceStepDecodeTable : Prop :=
  decodeStepVec 0b0000#4 = .t1 .write ∧ decodeStepVec 0b1000#4 = .t1 .read ∧ decodeStepVec 0b0001#4 = .t2 ∧
  decodeStepVec 0b0010#4 = .t3 ∧ decodeStepVec 0b0011#4 = .t4 ∧ decodeStepVec 0b1001#4 = .t5 ∧
  decodeStepVec 0b1100#4 = .t6 ∧ decodeStepVec 0b1101#4 = .t7 ∧ decodeStepVec 0b1110#4 = .t8 ∧
  decodeStepVec 0b0100#4 = .uxWrite 0#2 ∧ decodeStepVec 0b0101#4 = .uxWrite 1#2 ∧
  decodeStepVec 0b0110#4 = .uxWrite 2#2 ∧ decodeStepVec 0b0111#4 = .uxWrite 3#2 ∧
  decodeStepVec 0b1010#4 = .uxRead 0#1 ∧ decodeStepVec 0b1011#4 = .uxRead 1#1 ∧ decodeStepVec 0b1111#4 = .uxReadSeven ∧
  ∀ (d : Dir) (p : ProtoState), decodeStepVec (dirStateVec d p) = decodeStep d p

/-- R83 to R86: the operands of BWR and BRD are the word's fields, as unsigned numbers. -/
def Obligations.OperandsAreWordFields : Prop :=
  (∀ (w : Word) (sa : SlaveAddr) (rg data : Byte), decodeCmd w = .ok (.bwr sa rg data) →
    sa.toNat = w.toNat / 2 ^ 4 % 2 ^ 7 ∧ rg.toNat = w.toNat / 2 ^ 11 % 2 ^ 8 ∧ data.toNat = w.toNat / 2 ^ 19 % 2 ^ 8) ∧
  (∀ (w : Word) (sa : SlaveAddr) (rg ctx : Byte) (arm : Bool), decodeCmd w = .ok (.brd sa rg ctx arm) →
    sa.toNat = w.toNat / 2 ^ 4 % 2 ^ 7 ∧ rg.toNat = w.toNat / 2 ^ 11 % 2 ^ 8 ∧ ctx.toNat = w.toNat / 2 ^ 19 % 2 ^ 8 ∧
      (arm = true ↔ w.toNat / 2 ^ 27 % 2 = 1))

/-- R90: a line whose operands are in range makes its word; a line with one out of range makes none. -/
def Obligations.AssemblerRejectsOutOfRange : Prop :=
  (∀ sa rg data : Nat, assemble (.bwr sa rg data) =
    if sa ≤ 0x7F ∧ rg ≤ 0xFF ∧ data ≤ 0xFF then
      some (packCmd 1#4 (BitVec.ofNat 7 sa) (BitVec.ofNat 8 rg) (BitVec.ofNat 8 data) false) else none) ∧
  (∀ sa rg ctx : Nat, assemble (.brd sa rg ctx) =
    if sa ≤ 0x7F ∧ rg ≤ 0xFF ∧ ctx ≤ 0xFF then
      some (packCmd 2#4 (BitVec.ofNat 7 sa) (BitVec.ofNat 8 rg) (BitVec.ofNat 8 ctx) true) else none) ∧
  (∀ sa rg : Nat, assemble (.brdN sa rg) =
    if sa ≤ 0x7F ∧ rg ≤ 0xFF then
      some (packCmd 2#4 (BitVec.ofNat 7 sa) (BitVec.ofNat 8 rg) 0#8 false) else none) ∧
  (∀ sa rg ctx : Nat, assemble (.brdNCtx sa rg ctx) =
    if sa ≤ 0x7F ∧ rg ≤ 0xFF ∧ ctx ≤ 0xFF then
      some (packCmd 2#4 (BitVec.ofNat 7 sa) (BitVec.ofNat 8 rg) (BitVec.ofNat 8 ctx) false) else none) ∧
  assemble .svc = some 3#32 ∧ assemble .ptc = some 4#32 ∧ assemble .pbb = some 5#32 ∧ assemble .pmm = some 6#32

/-! ### The host command port -/

/-- R64, R66, R72, R80: when the host's next access writes a command word to CMD, the step is that command's meaning on
the state with the access taken from the order. With no access waiting the state is held (R221; the step that holds it
is the model's choice, log 2). -/
def Obligations.StepRunsWrittenCommand : Prop :=
  (∀ (s : State) (rest : List Access) (w : Word) (i : Instr),
    s.accesses = Access.memWrite Config.base Config.base 4 w :: rest → decodeCmd w = .ok i →
      step s = exec i { s with accesses := rest }) ∧
  (∀ s : State, s.accesses = [] → step s = .next s)

/-- The model's loader (log 10): after `withFetchWord` the next step runs the row's instruction. A command word runs on
the state itself; a `STEP` vector runs, after the prelude of a pending SVC, on the state in flight in that pair. -/
def Obligations.FetchWordRunsInstruction : Prop :=
  (∀ (s : State) (w : Nat) (i : Instr), decodeTableWord 32 w = some i → step (s.withFetchWord 32 w) = exec i s) ∧
  (∀ (s : State) (v : BitVec 4) (i : Instr), decodeTableWord 8 v.toNat = some i →
    step (s.withFetchWord 8 v.toNat) =
      exec i (prelude true
        { s with dir := vecDir v, state := vecState v, active := true, draws := s.draws ++ [.flag .iicif true] }))

/-- R120, R122, R123: an SVC with PEND = 1 clears the interrupt if it was sampled 1, samples ARBL once and issues CLRARB
if it is 1, and completes by running the one row {DIR, STATE} selects on the state so reached, whatever ARBL was. -/
def Obligations.PendingSvcRunsSelectedRow : Prop :=
  ∀ s : State, s.active = true → (s.flagAt .iicif 0 = true ∨ terminal s.dir s.state = true) →
    ∃ t, exec .svc s = .next t ∧
      exec (decodeStep s.dir s.state).toInstr
        { s with
          flagAnswers := s.flagAnswers.drop 2
          draws := s.draws ++ [.flag .iicif (s.flagAt .iicif 0), .flag .arbl (s.flagAt .arbl 1)]
          busHistory := s.busHistory ++ (if s.flagAt .iicif 0 then [.clrif] else []) ++
            (if s.flagAt .arbl 1 then [.clrarb] else []) } = .next t

/-- R121: an SVC that is not pending changes nothing: with ACTIVE = 0 not even a sample is taken; in a non-terminal
recognised state the one IICIF sample, answered 0, is all. -/
def Obligations.NotPendingSvcIsNoOp : Prop :=
  (∀ s : State, s.active = false → exec .svc s = .next s) ∧
  (∀ s : State, s.active = true → s.flagAt .iicif 0 = false → terminal s.dir s.state = false →
    exec .svc s = .next { s with flagAnswers := s.flagAnswers.tail, draws := s.draws ++ [.flag .iicif false] })

/-- R62: an access in the window of another width, or at an address that is no multiple of 4, is refused; an aligned
32-bit read is not. -/
def Obligations.ReservedAccessesAreRefused : Prop :=
  (∀ (s : State) (rest : List Access) (addr width : Nat) (v : Word),
    Config.base ≤ addr → addr ≤ Config.base + 0x0F → (width ≠ 4 ∨ addr % 4 ≠ 0) →
      (s.accesses = Access.memRead Config.base addr width :: rest ∨
        s.accesses = Access.memWrite Config.base addr width v :: rest) →
      step s = .refused .reservedAccess) ∧
  (∀ (s : State) (rest : List Access) (addr : Nat),
    Config.base ≤ addr → addr ≤ Config.base + 0x0F → addr % 4 = 0 →
      s.accesses = Access.memRead Config.base addr 4 :: rest → ∃ t, step s = .next t)

/-- R61: an address outside `BASE` to `BASE + 0x0F` is not the block's. That the model stops there with a fault is its
own choice (log 3). -/
def Obligations.OutsideWindowFaults : Prop :=
  ∀ (s : State) (rest : List Access) (addr width : Nat) (v : Word),
    (addr < Config.base ∨ Config.base + 0x0F < addr) →
    (s.accesses = Access.memRead Config.base addr width :: rest ∨
      s.accesses = Access.memWrite Config.base addr width v :: rest) →
    step s = .fault .outsideWindow

/-- R63 (and R61's "reads return"): CMD and the reserved word read 0, PACKET reads the packet, STATUS reads the status
word with PEND from one IICIF sample when ACTIVE = 1 and from none when ACTIVE = 0. Nothing else changes. -/
def Obligations.WindowReads : Prop :=
  ∀ (s : State) (rest : List Access),
    (∀ off : Nat, off = 0x00 ∨ off = 0x0C → s.accesses = Access.memRead Config.base (Config.base + off) 4 :: rest →
      step s = .next { s with accesses := rest, readData := s.readData ++ [0#32] }) ∧
    (s.accesses = Access.memRead Config.base (Config.base + 0x08) 4 :: rest →
      step s = .next { s with accesses := rest, readData := s.readData ++ [packetWord s] }) ∧
    (s.active = false → s.accesses = Access.memRead Config.base (Config.base + 0x04) 4 :: rest →
      step s = .next { s with accesses := rest, readData := s.readData ++ [statusWord s false] }) ∧
    (s.active = true → s.accesses = Access.memRead Config.base (Config.base + 0x04) 4 :: rest →
      step s = .next { s with
        accesses := rest
        readData := s.readData ++ [statusWord s (pend s (s.flagAt .iicif 0))]
        flagAnswers := s.flagAnswers.tail
        draws := s.draws ++ [.flag .iicif (s.flagAt .iicif 0)] })

/-- R61, R64: a write to STATUS, PACKET or the reserved word is ignored and changes no state. -/
def Obligations.WindowWritesAreIgnored : Prop :=
  ∀ (s : State) (rest : List Access) (off : Nat) (v : Word), off = 0x04 ∨ off = 0x08 ∨ off = 0x0C →
    s.accesses = Access.memWrite Config.base (Config.base + off) 4 v :: rest →
      step s = .next { s with accesses := rest }

/-- R36: the STATUS layout, bit by bit, as a number; bits [31:12] read 0. -/
def Obligations.StatusLayout : Prop :=
  ∀ (s : State) (p : Bool),
    (statusWord s p).toNat = s.state.code.toNat + 2 ^ 3 * s.dir.bit.toNat + 2 ^ 4 * s.active.toNat + 2 ^ 5 * p.toNat +
      2 ^ 6 * s.armed.toNat + 2 ^ 7 * s.prb.toNat + 2 ^ 8 * s.result.code.toNat + 2 ^ 11 * s.tmo.toNat

/-- R21, R22, R200: the numbers of STATE, of DIR and of RESULT, in which StatusLayout gives the fields. -/
def Obligations.FieldNumbers : Prop :=
  (ProtoState.aw.code = 0#3 ∧ ProtoState.cw.code = 1#3 ∧ ProtoState.dw.code = 2#3 ∧ ProtoState.wd.code = 3#3 ∧
    ProtoState.ar.code = 4#3 ∧ ProtoState.rs.code = 5#3 ∧ ProtoState.dr.code = 6#3 ∧ ProtoState.noState.code = 7#3) ∧
  (Dir.write.bit = 0#1 ∧ Dir.read.bit = 1#1) ∧
  (ResultCode.ok.code = 0#3 ∧ ResultCode.busBusy.code = 1#3 ∧ ResultCode.transferNotComplete.code = 2#3 ∧
    ResultCode.masterModeStillSet.code = 3#3 ∧ ResultCode.hardwareTimeout.code = 4#3 ∧
    ResultCode.acknowledgeMissing.code = 5#3 ∧ ResultCode.unexpectedProtocolState.code = 6#3 ∧
    ResultCode.neverWritten.code = 7#3)

/-- R37: the PACKET layout as a number; bit 7 reads 0. -/
def Obligations.PacketLayout : Prop :=
  ∀ s : State,
    (packetWord s).toNat = s.sa.toNat + 2 ^ 8 * s.reg.toNat + 2 ^ 16 * s.data0.toNat + 2 ^ 24 * s.ctx.toNat

/-- R28, R29, R44: recognised, TERMINAL and PEND as the rules list them; `irq` is PEND. -/
def Obligations.PendRule : Prop :=
  (∀ (d : Dir) (p : ProtoState), recognised d p = true ↔
    ((d = .write ∧ (p = .aw ∨ p = .cw ∨ p = .dw ∨ p = .wd)) ∨
      (d = .read ∧ (p = .aw ∨ p = .cw ∨ p = .ar ∨ p = .rs ∨ p = .dr)))) ∧
  (∀ (d : Dir) (p : ProtoState), terminal d p = true ↔
    ((d = .write ∧ p = .wd) ∨ (d = .read ∧ p = .dr) ∨ recognised d p = false)) ∧
  (∀ (s : State) (iif : Bool), pend s iif = true ↔
    (s.active = true ∧ (iif = true ∨ (s.dir = .write ∧ s.state = .wd) ∨ (s.dir = .read ∧ s.state = .dr) ∨
      recognised s.dir s.state = false))) ∧
  (∀ (s : State) (iif : Bool), irq s iif = pend s iif)

/-- R88: the address byte is the address shifted by one with the direction bit; no bit is lost; the rule's examples. -/
def Obligations.AddressByte : Prop :=
  (∀ sa : SlaveAddr, (addrByte sa .write).toNat = 2 * sa.toNat ∧ (addrByte sa .read).toNat = 2 * sa.toNat + 1) ∧
  addrByte 0x1D#7 .write = 0x3A#8 ∧ addrByte 0x1D#7 .read = 0x3B#8 ∧
  addrByte 0x7F#7 .write = 0xFE#8 ∧ addrByte 0x7F#7 .read = 0xFF#8 ∧
  addrByte 0x00#7 .write = 0x00#8 ∧ addrByte 0x00#7 .read = 0x01#8

/-! ### Probes -/

/-- R160: the busy-wait ends Ready at the first sample equal to `ready`, having taken that sample and those before it,
and TimedOut after `limit` samples that are not; it writes nothing else. It is Ready exactly when such a sample exists. -/
def Obligations.ProbeEndsAtFirstReady : Prop :=
  ∀ (limit : Nat) (f : Flag) (ready : Bool) (s : State),
    (∀ k, ReadyAt limit f ready s k → probe limit f ready s = (.ready, s.afterSamples f (k + 1))) ∧
    (NeverReady limit f ready s → probe limit f ready s = (.timedOut, s.afterSamples f limit)) ∧
    ((probe limit f ready s).1 = .ready ↔ ∃ k, k < limit ∧ s.flagAt f k = ready)

/-- R161 (with R160): PTC. -/
def Obligations.PtcResult : Prop :=
  ∀ s : State,
    (∀ k, ReadyAt Config.probeLimit .tcf true s k →
      exec .ptc s = .next { s.afterSamples .tcf (k + 1) with prb := true, result := .ok, tmo := false }) ∧
    (NeverReady Config.probeLimit .tcf true s →
      exec .ptc s = .next
        { s.afterSamples .tcf Config.probeLimit with prb := false, result := .hardwareTimeout, tmo := true })

/-- R162 (with R160): PBB. -/
def Obligations.PbbResult : Prop :=
  ∀ s : State,
    (∀ k, ReadyAt Config.probeLimit .busy false s k →
      exec .pbb s = .next { s.afterSamples .busy (k + 1) with prb := false, result := .ok, tmo := false }) ∧
    (NeverReady Config.probeLimit .busy false s →
      exec .pbb s = .next
        { s.afterSamples .busy Config.probeLimit with prb := true, result := .hardwareTimeout, tmo := true })

/-- R163 (with R160): PMM. -/
def Obligations.PmmResult : Prop :=
  ∀ s : State,
    (∀ k, ReadyAt Config.probeLimit .mst false s k →
      exec .pmm s = .next { s.afterSamples .mst (k + 1) with prb := false, result := .ok, tmo := false }) ∧
    (NeverReady Config.probeLimit .mst false s →
      exec .pmm s = .next
        { s.afterSamples .mst Config.probeLimit with prb := true, result := .hardwareTimeout, tmo := true })

/-- R164: a probe, in every state and whether or not it times out, completes, changes no packet field and not ACTIVE,
issues no bus action and emits no event; a timeout reports HardwareTimeout. -/
def Obligations.ProbesLeaveTransaction : Prop :=
  ∀ (i : Instr) (s : State), isProbe i = true →
    ∃ t, exec i s = .next t ∧ SamePacket s t ∧ t.busHistory = s.busHistory ∧ t.events = s.events ∧
      (t.tmo = true → t.result = .hardwareTimeout) ∧ (t.tmo = false → t.result = .ok)

/-! ### Transaction start -/

/-- R203: the two cases of TransferNotComplete, with TO and samples as the rule says; nothing else changes. -/
def Obligations.TransferNotCompleteRejection : Prop :=
  ∀ (i : Instr) (s : State), isBegin i = true →
    (s.active = true → exec i s = .next { s with result := .transferNotComplete, tmo := false }) ∧
    (s.active = false → NeverReady Config.probeLimit .tcf true s →
      exec i s = .next { s.afterSamples .tcf Config.probeLimit with result := .transferNotComplete, tmo := true })

/-- R202 (with R102): BusBusy, with TO = 1; nothing else changes. -/
def Obligations.BusBusyRejection : Prop :=
  ∀ (i : Instr) (s : State) (k₁ : Nat), isBegin i = true → s.active = false →
    ReadyAt Config.probeLimit .tcf true s k₁ → NeverReady Config.probeLimit .busy false (s.afterTcf k₁) →
      exec i s = .next { (s.afterTcf k₁).afterSamples .busy Config.probeLimit with result := .busBusy, tmo := true }

/-- R204 (with R103): MasterModeStillSet, with TO = 1; nothing else changes. -/
def Obligations.MasterModeRejection : Prop :=
  ∀ (i : Instr) (s : State) (k₁ k₂ : Nat), isBegin i = true → BusReady s k₁ k₂ →
    NeverReady Config.probeLimit .mst false (s.afterBusy k₁ k₂) →
      exec i s = .next
        { (s.afterBusy k₁ k₂).afterSamples .mst Config.probeLimit with result := .masterModeStillSet, tmo := true }

/-- R107 (and R105's acceptance): a BWR whose checks pass completes with the packet armed for the write and the four bus
actions of `start_bus`. -/
def Obligations.BwrAccepted : Prop :=
  ∀ (s : State) (sa : SlaveAddr) (rg data : Byte) (k₁ k₂ k₃ : Nat), BeginReady s k₁ k₂ k₃ →
    exec (.bwr sa rg data) s = .next { s.afterMst k₁ k₂ k₃ with
      sa := sa, reg := rg, data0 := data, dir := .write, state := .aw, armed := false, ctx := 0#8, active := true
      busHistory := s.busHistory ++ [.clrif, .tx, .start, .write (addrByte sa .write)]
      result := .ok, tmo := false }

/-- R107 (and R106's acceptance): a BRD whose checks pass completes with the packet set for the read, its completion
armed or not as ARM says, DATA0 kept, and the four bus actions of `start_bus`. -/
def Obligations.BrdAccepted : Prop :=
  ∀ (s : State) (sa : SlaveAddr) (rg ctx : Byte) (arm : Bool) (k₁ k₂ k₃ : Nat), BeginReady s k₁ k₂ k₃ →
    exec (.brd sa rg ctx arm) s = .next { s.afterMst k₁ k₂ k₃ with
      sa := sa, reg := rg, dir := .read, state := .aw, armed := arm, ctx := ctx, active := true
      busHistory := s.busHistory ++ [.clrif, .tx, .start, .write (addrByte sa .write)]
      result := .ok, tmo := false }

/-- R104, R109: a begin that does not report None is a rejection: no packet field, no ACTIVE, no PRB, no bus action; and
no begin, accepted or not, emits a completion event. -/
def Obligations.RejectedBeginTouchesNothing : Prop :=
  ∀ (i : Instr) (s t : State), isBegin i = true → exec i s = .next t →
    t.events = s.events ∧ t.prb = s.prb ∧
      (t.result = .ok ∨ t.result = .transferNotComplete ∨ t.result = .busBusy ∨ t.result = .masterModeStillSet) ∧
      (t.result ≠ .ok → SamePacket s t ∧ t.busHistory = s.busHistory) ∧
      (t.result = .ok → s.active = false ∧ t.active = true ∧ t.tmo = false)

/-- R108: which samples a begin takes, in which order, for each of its ends; at most `3 × PROBE_LIMIT`. -/
def Obligations.BeginSampleOrder : Prop :=
  ∀ (i : Instr) (s t : State), isBegin i = true → exec i s = .next t →
    ∃ d : List Draw, t.draws = s.draws ++ d ∧ d.length ≤ 3 * Config.probeLimit ∧ (s.active = true → d = []) ∧
      (s.active = false →
        (t.result = .transferNotComplete ∧ d = List.replicate Config.probeLimit (.flag .tcf false)) ∨
        (t.result = .busBusy ∧ ∃ k₁ < Config.probeLimit,
          d = List.replicate k₁ (.flag .tcf false) ++ [.flag .tcf true] ++
            List.replicate Config.probeLimit (.flag .busy true)) ∨
        (t.result = .masterModeStillSet ∧ ∃ k₁ < Config.probeLimit, ∃ k₂ < Config.probeLimit,
          d = List.replicate k₁ (.flag .tcf false) ++ [.flag .tcf true] ++
            List.replicate k₂ (.flag .busy true) ++ [.flag .busy false] ++
            List.replicate Config.probeLimit (.flag .mst true)) ∨
        (t.result = .ok ∧ ∃ k₁ < Config.probeLimit, ∃ k₂ < Config.probeLimit, ∃ k₃ < Config.probeLimit,
          d = List.replicate k₁ (.flag .tcf false) ++ [.flag .tcf true] ++
            List.replicate k₂ (.flag .busy true) ++ [.flag .busy false] ++
            List.replicate k₃ (.flag .mst true) ++ [.flag .mst false]))

/-! ### The service step, row by row -/

/-- R125: the ack-missing recovery, which every row with an acknowledge check runs when ACKED is sampled 0. -/
def Obligations.AckMissingRecovery : Prop :=
  ∀ (i : Instr) (s : State), (∃ d, i = .t1 d) ∨ i = .t2 ∨ i = .t3 ∨ i = .t5 ∨ i = .t6 → s.flagAt .acked 0 = false →
    exec i s = .next { s with
      flagAnswers := s.flagAnswers.tail, draws := s.draws ++ [.flag .acked false]
      busHistory := s.busHistory ++ [.stop], state := .aw, active := false, armed := false
      result := .acknowledgeMissing }

/-- R126: T1, in either direction, when the write-address byte was acknowledged. -/
def Obligations.T1Result : Prop :=
  ∀ (d : Dir) (s : State), s.flagAt .acked 0 = true →
    exec (.t1 d) s = .next { s with
      flagAnswers := s.flagAnswers.tail, draws := s.draws ++ [.flag .acked true]
      busHistory := s.busHistory ++ [.write s.reg], state := .cw, result := .ok }

/-- R127: T2, when the register byte was acknowledged. -/
def Obligations.T2Result : Prop :=
  ∀ s : State, s.flagAt .acked 0 = true →
    exec .t2 s = .next { s with
      flagAnswers := s.flagAnswers.tail, draws := s.draws ++ [.flag .acked true]
      busHistory := s.busHistory ++ [.write s.data0], state := .dw, result := .ok }

/-- R128: T3, when the data byte was acknowledged; no bus action. -/
def Obligations.T3Result : Prop :=
  ∀ s : State, s.flagAt .acked 0 = true →
    exec .t3 s = .next { s with
      flagAnswers := s.flagAnswers.tail, draws := s.draws ++ [.flag .acked true], state := .wd, result := .ok }

/-- R129: T4; no acknowledge is checked. -/
def Obligations.T4Result : Prop :=
  ∀ s : State, exec .t4 s = .next { s with
    busHistory := s.busHistory ++ [.stop], state := .aw, active := false, armed := false, result := .ok }

/-- R130: T5, when the register byte was acknowledged: repeated start, then the read-address byte. -/
def Obligations.T5Result : Prop :=
  ∀ s : State, s.flagAt .acked 0 = true →
    exec .t5 s = .next { s with
      flagAnswers := s.flagAnswers.tail, draws := s.draws ++ [.flag .acked true]
      busHistory := s.busHistory ++ [.rstart, .write (addrByte s.sa .read)], state := .ar, result := .ok }

/-- R131: T6, when the read-address byte was acknowledged: RX and a dummy READ, whose byte `b`, whatever the adapter
returns, reaches no field of the engine. -/
def Obligations.T6Result : Prop :=
  ∀ s : State, s.flagAt .acked 0 = true →
    ∃ b : Byte, exec .t6 s = .next { s with
      flagAnswers := s.flagAnswers.tail, byteAnswers := s.byteAnswers.tail
      draws := s.draws ++ [.flag .acked true, .byte b]
      busHistory := s.busHistory ++ [.rx, .read], state := .rs, result := .ok } ∧
      ∀ c cs, s.byteAnswers = c :: cs → b = c

/-- R132: T7: READ, STOP, TX; the byte returned goes to DATA0 and, if a completion is armed, out as the one event
(CTX, b); no acknowledge is checked. -/
def Obligations.T7Result : Prop :=
  ∀ s : State, exec .t7 s = .next { s with
    byteAnswers := s.byteAnswers.tail, draws := s.draws ++ [.byte s.byteNext]
    busHistory := s.busHistory ++ [.read, .stop, .tx], data0 := s.byteNext, state := .dr
    events := if s.armed then s.events ++ [⟨s.ctx, s.byteNext⟩] else s.events
    armed := false, result := .ok }

/-- R133: T8; no bus action. -/
def Obligations.T8Result : Prop :=
  ∀ s : State, exec .t8 s = .next { s with state := .aw, active := false, armed := false, result := .ok }

/-- R134: UX, in each of its three rows: one STOP, idle, the completion dropped with no event. -/
def Obligations.UnexpectedStateRecovery : Prop :=
  ∀ (i : Instr) (s : State), (∃ low, i = .uxWrite low) ∨ (∃ low, i = .uxRead low) ∨ i = .uxReadSeven →
    exec i s = .next { s with
      busHistory := s.busHistory ++ [.stop], state := .aw, active := false, armed := false
      result := .unexpectedProtocolState }

/-! ### The whole machine -/

/-- R47: the reset values the spec gives. -/
def Obligations.ResetValues : Prop :=
  State.reset.state = .aw ∧ State.reset.dir = .write ∧ State.reset.sa = 0#7 ∧ State.reset.reg = 0#8 ∧
  State.reset.data0 = 0#8 ∧ State.reset.armed = false ∧ State.reset.ctx = 0#8 ∧ State.reset.active = false ∧
  State.reset.result = .ok ∧ State.reset.tmo = false ∧ State.reset.prb = false ∧
  State.reset.busHistory = [] ∧ State.reset.events = []

/-- R35: the invariants hold at reset. -/
def Obligations.ResetMeetsInvariants : Prop := Inv State.reset

/-- R35: from every state that meets the invariants, reachable or not, a step gives a state that meets them. -/
def Obligations.StepKeepsInvariants : Prop :=
  ∀ s t : State, Inv s → step s = .next t → Inv t

/-- R35: the invariants hold in every state reachable from reset by commands, under every host and every adapter. -/
def Obligations.ReachableStatesMeetInvariants : Prop :=
  ∀ s : State, Reachable s →
    (s.active = false → s.state = .aw) ∧ (s.active = false → s.armed = false) ∧
    (s.active = true → recognised s.dir s.state = true) ∧ (s.dir = .write → s.armed = false)

/-- R210: no error makes the block stop: every command, in every state, completes. -/
def Obligations.CommandsAlwaysComplete : Prop :=
  ∀ (i : Instr) (s : State), ∃ t, exec i s = .next t

/-- R22 to R24, R26, R38: a step changes DIR, SA, REG or CTX, or sets ACTIVE, only by a BWR or BRD written to CMD; and
it changes DATA0 only by one of these or by an SVC that captures a read's byte. -/
def Obligations.OnlyBeginsWriteTheTarget : Prop :=
  ∀ s t : State, step s = .next t →
    ((t.dir ≠ s.dir ∨ t.sa ≠ s.sa ∨ t.reg ≠ s.reg ∨ t.ctx ≠ s.ctx ∨ (s.active = false ∧ t.active = true)) →
      ∃ i, nextCommand s = some i ∧ isBegin i = true ∧ t.result = .ok) ∧
    (t.data0 ≠ s.data0 →
      (∃ sa rg, nextCommand s = some (.bwr sa rg t.data0) ∧ t.result = .ok) ∨
      (nextCommand s = some .svc ∧ s.active = true ∧ s.dir = .read ∧ s.state = .rs ∧ t.state = .dr))

/-- R30 to R32: who writes the report fields. SVC and its rows keep TO; only the probes write PRB; a step that changes
RESULT ran a command. -/
def Obligations.ReportFieldWriters : Prop :=
  (∀ (i : Instr) (s t : State), exec i s = .next t →
    ((i = .svc ∨ i.isStepRow = true) → t.tmo = s.tmo) ∧ (isProbe i = false → t.prb = s.prb) ∧
    ((isBegin i = true ∨ isProbe i = true) → (t.tmo = true → t.result ≠ .ok))) ∧
  (∀ s t : State, step s = .next t → t.result ≠ s.result → ∃ i, nextCommand s = some i)

/-- R33, R67: a step only appends to the bus-action history and the completion stream (and to the model's own records of
draws and read values): nothing is dropped or reordered. -/
def Obligations.StreamsOnlyGrow : Prop :=
  ∀ s t : State, step s = .next t →
    s.busHistory <+: t.busHistory ∧ s.events <+: t.events ∧ s.draws <+: t.draws ∧ s.readData <+: t.readData

/-- R33, R34: a step emits no completion event, or exactly one, (CTX, DATA0 as captured), from T7 with the completion
armed before and not after; and a completion gets armed only by a BRD with ARM = 1. -/
def Obligations.CompletionIsSingleShot : Prop :=
  ∀ s t : State, step s = .next t →
    (t.events = s.events ∨
      (t.events = s.events ++ [⟨s.ctx, t.data0⟩] ∧ nextCommand s = some .svc ∧ s.active = true ∧ s.dir = .read ∧
        s.state = .rs ∧ s.armed = true ∧ t.armed = false)) ∧
    (s.armed = false → t.armed = true → ∃ sa rg ctx, nextCommand s = some (.brd sa rg ctx true) ∧ t.result = .ok)

/-- R138, R244: the ways out of ACTIVE = 1. A step that ends a transaction is an SVC that took T4, T8, an ack-missing
recovery at an acknowledge point, or the unexpected-state recovery. -/
def Obligations.WaysOutOfFlight : Prop :=
  ∀ s t : State, step s = .next t → s.active = true → t.active = false →
    nextCommand s = some .svc ∧ t.state = .aw ∧ t.armed = false ∧ t.events = s.events ∧
      ((t.result = .ok ∧ ((s.dir = .write ∧ s.state = .wd) ∨ (s.dir = .read ∧ s.state = .dr))) ∨
        (t.result = .acknowledgeMissing ∧
          (s.state = .aw ∨ s.state = .cw ∨ (s.dir = .write ∧ s.state = .dw) ∨ (s.dir = .read ∧ s.state = .ar))) ∨
        (t.result = .unexpectedProtocolState ∧ recognised s.dir s.state = false))

/-- R135, R137: an accepted BWR, then SVCs each pending and acknowledged: four SVCs take STATE AW, CW, DW, WD, AW, the
engine ends idle with no completion armed, and the bus-action history is that of a write. -/
def Obligations.WriteTransactionRunsToIdle : Prop :=
  ∀ (sa : SlaveAddr) (rg data : Byte) (s t₀ t₁ t₂ t₃ t₄ : State),
    exec (.bwr sa rg data) s = .next t₀ → t₀.result = .ok →
    exec .svc t₀ = .next t₁ → exec .svc t₁ = .next t₂ → exec .svc t₂ = .next t₃ → exec .svc t₃ = .next t₄ →
    (∀ t ∈ [t₀, t₁, t₂], t.flagAt .iicif 0 = true ∧ t.flagAt .acked 2 = true) →
      [t₀.state, t₁.state, t₂.state, t₃.state, t₄.state] = [.aw, .cw, .dw, .wd, .aw] ∧
      idle t₄ = true ∧ t₄.armed = false ∧ t₄.result = .ok ∧ t₄.events = s.events ∧
      ∃ added, t₄.busHistory = s.busHistory ++ added ∧
        added.filter (fun a => a != .clrif && a != .clrarb) =
          [.tx, .start, .write (addrByte sa .write), .write rg, .write data, .stop]

/-- R136, R137: an accepted BRD, then SVCs each pending and acknowledged: five SVCs take STATE AW, CW, AR, RS, DR, AW;
with ARM = 1 exactly one event (CTX, b) is emitted, in the fourth, where b is the byte its READ returned; the bus-action
history is that of a read. -/
def Obligations.ReadTransactionDeliversByte : Prop :=
  ∀ (sa : SlaveAddr) (rg ctx : Byte) (arm : Bool) (s t₀ t₁ t₂ t₃ t₄ t₅ : State),
    exec (.brd sa rg ctx arm) s = .next t₀ → t₀.result = .ok →
    exec .svc t₀ = .next t₁ → exec .svc t₁ = .next t₂ → exec .svc t₂ = .next t₃ → exec .svc t₃ = .next t₄ →
    exec .svc t₄ = .next t₅ →
    (∀ t ∈ [t₀, t₁, t₂], t.flagAt .iicif 0 = true ∧ t.flagAt .acked 2 = true) → t₃.flagAt .iicif 0 = true →
      [t₀.state, t₁.state, t₂.state, t₃.state, t₄.state, t₅.state] = [.aw, .cw, .ar, .rs, .dr, .aw] ∧
      idle t₅ = true ∧ t₅.armed = false ∧ t₅.result = .ok ∧
      (∃ b, t₄.draws.getLast? = some (.byte b) ∧ t₄.data0 = b ∧ t₅.data0 = b ∧ t₃.events = s.events ∧
        t₄.events = s.events ++ (if arm then [⟨ctx, b⟩] else []) ∧ t₅.events = t₄.events) ∧
      ∃ added, t₅.busHistory = s.busHistory ++ added ∧
        added.filter (fun a => a != .clrif && a != .clrarb) =
          [.tx, .start, .write (addrByte sa .write), .write rg, .rstart, .write (addrByte sa .read), .rx, .read,
            .read, .stop, .tx]

/-- R236: no timeout inside a transaction, no abort. While the adapter answers IICIF 0 in a non-terminal recognised
state, no command ends or moves the transaction, and any number of SVCs is a no-op. -/
def Obligations.StalledTransactionStaysInFlight : Prop :=
  (∀ (i : Instr) (s t : State), i.isCommand = true → s.active = true → terminal s.dir s.state = false →
    s.flagAt .iicif 0 = false → exec i s = .next t →
      SamePacket s t ∧ t.busHistory = s.busHistory ∧ t.events = s.events) ∧
  (∀ (n : Nat) (s : State), s.active = true → terminal s.dir s.state = false →
    (∀ j < n, s.flagAt .iicif j = false) →
      runCommands (List.replicate n .svc) s = .next (s.afterSamples .iicif n))

/-- R200, R207: from every state that meets the invariants of R35, reachable or not, a step keeps RESULT from being
UnexpectedProtocolState or the code 7; so no command sequence from reset reports either. -/
def Obligations.UnexpectedStateNeverReported : Prop :=
  (∀ s t : State, Inv s → s.result ≠ .unexpectedProtocolState → s.result ≠ .neverWritten → step s = .next t →
    t.result ≠ .unexpectedProtocolState ∧ t.result ≠ .neverWritten) ∧
  (∀ s : State, Reachable s → s.result ≠ .unexpectedProtocolState ∧ s.result ≠ .neverWritten)

/-! ### The reference client (outside the block) -/

/-- R178: an axis is the big-endian pair read as two's complement; which bytes make which axis. -/
def Obligations.AxisAssembly : Prop :=
  (∀ hi lo : Byte, axis hi lo =
    if hi.toNat * 256 + lo.toNat < 0x8000 then ((hi.toNat * 256 + lo.toNat : Nat) : Int)
    else ((hi.toNat * 256 + lo.toNat : Nat) : Int) - 0x10000) ∧
  (∀ c : Client, c.sample =
    ⟨axis c.bytes[0] c.bytes[1], axis c.bytes[2] c.bytes[3], axis c.bytes[4] c.bytes[5]⟩)

/-- R174: the completion handler writes the byte at index CTX when CTX is below 6, and nothing otherwise. -/
def Obligations.CompletionHandlerStoresByte : Prop :=
  ∀ (c : Client) (e : Completion) (j : Nat) (hj : j < 6),
    (c.handle e).bytes[j] = (if e.ctx.toNat = j then e.byte else c.bytes[j]) ∧
      (c.handle e).phase = c.phase ∧ (c.handle e).step = c.step

/-- R173, R176: `client_service` completes in every state; its step moves only when the engine was idle and the begin it
wrote was accepted. That no other host access falls between the client's own, where R241 says such a sequence is not
atomic, is the model's choice (DESIGN CHOICE, log 13), and the statement rests on it. -/
def Obligations.ClientAdvancesOnAcceptanceOnly : Prop :=
  ∀ (p : ClientParams) (c : Client) (s : State), ∃ c' t, Client.service p c s = .next (c', t) ∧
    ((c'.phase ≠ c.phase ∨ c'.step ≠ c.step) → idle s = true ∧ t.active = true ∧ t.result = .ok)

/-- R172, R181: the client's step stays in 0..1 while Initializing and in 0..5 while Running, from turn to turn. What
one turn runs, and when its handler runs, is the model's choice (DESIGN CHOICE, log 13). -/
def Obligations.ClientStepStaysInRange : Prop :=
  ∀ (p : ClientParams) (c c' : Client) (s t : State), Client.loopTurn p c s = .next (c', t) →
    (c.phase = .initializing → c.step ≤ 1) → (c.phase = .running → c.step ≤ 5) →
      (c'.phase = .initializing → c'.step ≤ 1) ∧ (c'.phase = .running → c'.step ≤ 5)
end

