-- ==== Sys2Proof/Laws/State.lean ====
section
/-! SUPPORT. For each update of the state, one lemma per field: what the field is after the update, by `rfl`. A later
proof rewrites with these and never unfolds a record update. -/

namespace Sys2Proof.Machine

@[simp] theorem sample_fst (s : State) (f : Flag) : (sample f s).1 = s.flagAt f 0 := rfl

@[simp] theorem sample_snd (s : State) (f : Flag) : (sample f s).2 = s.drawFlag f := rfl

@[simp] theorem busRead_fst (s : State) : (busRead s).1 = s.byteNext := rfl

/-! ### drawFlag -/

@[simp] theorem drawFlag_state (s : State) (f : Flag) : (s.drawFlag f).state = s.state := rfl

@[simp] theorem drawFlag_dir (s : State) (f : Flag) : (s.drawFlag f).dir = s.dir := rfl

@[simp] theorem drawFlag_sa (s : State) (f : Flag) : (s.drawFlag f).sa = s.sa := rfl

@[simp] theorem drawFlag_reg (s : State) (f : Flag) : (s.drawFlag f).reg = s.reg := rfl

@[simp] theorem drawFlag_data0 (s : State) (f : Flag) : (s.drawFlag f).data0 = s.data0 := rfl

@[simp] theorem drawFlag_armed (s : State) (f : Flag) : (s.drawFlag f).armed = s.armed := rfl

@[simp] theorem drawFlag_ctx (s : State) (f : Flag) : (s.drawFlag f).ctx = s.ctx := rfl

@[simp] theorem drawFlag_active (s : State) (f : Flag) : (s.drawFlag f).active = s.active := rfl

@[simp] theorem drawFlag_result (s : State) (f : Flag) : (s.drawFlag f).result = s.result := rfl

@[simp] theorem drawFlag_tmo (s : State) (f : Flag) : (s.drawFlag f).tmo = s.tmo := rfl

@[simp] theorem drawFlag_prb (s : State) (f : Flag) : (s.drawFlag f).prb = s.prb := rfl

@[simp] theorem drawFlag_busHistory (s : State) (f : Flag) : (s.drawFlag f).busHistory = s.busHistory := rfl

@[simp] theorem drawFlag_events (s : State) (f : Flag) : (s.drawFlag f).events = s.events := rfl

@[simp] theorem drawFlag_accesses (s : State) (f : Flag) : (s.drawFlag f).accesses = s.accesses := rfl

@[simp] theorem drawFlag_readData (s : State) (f : Flag) : (s.drawFlag f).readData = s.readData := rfl

@[simp] theorem drawFlag_flagAnswers (s : State) (f : Flag) : (s.drawFlag f).flagAnswers = s.flagAnswers.tail := rfl

@[simp] theorem drawFlag_byteAnswers (s : State) (f : Flag) : (s.drawFlag f).byteAnswers = s.byteAnswers := rfl

@[simp] theorem drawFlag_draws (s : State) (f : Flag) : (s.drawFlag f).draws = s.draws ++ [.flag f (s.flagAt f 0)] := rfl

/-! ### busAct -/

@[simp] theorem busAct_state (s : State) (a : BusAction) : (busAct a s).state = s.state := rfl

@[simp] theorem busAct_dir (s : State) (a : BusAction) : (busAct a s).dir = s.dir := rfl

@[simp] theorem busAct_sa (s : State) (a : BusAction) : (busAct a s).sa = s.sa := rfl

@[simp] theorem busAct_reg (s : State) (a : BusAction) : (busAct a s).reg = s.reg := rfl

@[simp] theorem busAct_data0 (s : State) (a : BusAction) : (busAct a s).data0 = s.data0 := rfl

@[simp] theorem busAct_armed (s : State) (a : BusAction) : (busAct a s).armed = s.armed := rfl

@[simp] theorem busAct_ctx (s : State) (a : BusAction) : (busAct a s).ctx = s.ctx := rfl

@[simp] theorem busAct_active (s : State) (a : BusAction) : (busAct a s).active = s.active := rfl

@[simp] theorem busAct_result (s : State) (a : BusAction) : (busAct a s).result = s.result := rfl

@[simp] theorem busAct_tmo (s : State) (a : BusAction) : (busAct a s).tmo = s.tmo := rfl

@[simp] theorem busAct_prb (s : State) (a : BusAction) : (busAct a s).prb = s.prb := rfl

@[simp] theorem busAct_busHistory (s : State) (a : BusAction) : (busAct a s).busHistory = s.busHistory ++ [a] := rfl

@[simp] theorem busAct_events (s : State) (a : BusAction) : (busAct a s).events = s.events := rfl

@[simp] theorem busAct_accesses (s : State) (a : BusAction) : (busAct a s).accesses = s.accesses := rfl

@[simp] theorem busAct_readData (s : State) (a : BusAction) : (busAct a s).readData = s.readData := rfl

@[simp] theorem busAct_flagAnswers (s : State) (a : BusAction) : (busAct a s).flagAnswers = s.flagAnswers := rfl

@[simp] theorem busAct_byteAnswers (s : State) (a : BusAction) : (busAct a s).byteAnswers = s.byteAnswers := rfl

@[simp] theorem busAct_draws (s : State) (a : BusAction) : (busAct a s).draws = s.draws := rfl

/-! ### busRead -/

@[simp] theorem busRead_state (s : State) : (busRead s).2.state = s.state := rfl

@[simp] theorem busRead_dir (s : State) : (busRead s).2.dir = s.dir := rfl

@[simp] theorem busRead_sa (s : State) : (busRead s).2.sa = s.sa := rfl

@[simp] theorem busRead_reg (s : State) : (busRead s).2.reg = s.reg := rfl

@[simp] theorem busRead_data0 (s : State) : (busRead s).2.data0 = s.data0 := rfl

@[simp] theorem busRead_armed (s : State) : (busRead s).2.armed = s.armed := rfl

@[simp] theorem busRead_ctx (s : State) : (busRead s).2.ctx = s.ctx := rfl

@[simp] theorem busRead_active (s : State) : (busRead s).2.active = s.active := rfl

@[simp] theorem busRead_result (s : State) : (busRead s).2.result = s.result := rfl

@[simp] theorem busRead_tmo (s : State) : (busRead s).2.tmo = s.tmo := rfl

@[simp] theorem busRead_prb (s : State) : (busRead s).2.prb = s.prb := rfl

@[simp] theorem busRead_busHistory (s : State) : (busRead s).2.busHistory = s.busHistory ++ [.read] := rfl

@[simp] theorem busRead_events (s : State) : (busRead s).2.events = s.events := rfl

@[simp] theorem busRead_accesses (s : State) : (busRead s).2.accesses = s.accesses := rfl

@[simp] theorem busRead_readData (s : State) : (busRead s).2.readData = s.readData := rfl

@[simp] theorem busRead_flagAnswers (s : State) : (busRead s).2.flagAnswers = s.flagAnswers := rfl

@[simp] theorem busRead_byteAnswers (s : State) : (busRead s).2.byteAnswers = s.byteAnswers.tail := rfl

@[simp] theorem busRead_draws (s : State) : (busRead s).2.draws = s.draws ++ [.byte s.byteNext] := rfl

/-! ### emitCompletion -/

@[simp] theorem emitCompletion_state (s : State) (c b : Byte) : (emitCompletion c b s).state = s.state := rfl

@[simp] theorem emitCompletion_dir (s : State) (c b : Byte) : (emitCompletion c b s).dir = s.dir := rfl

@[simp] theorem emitCompletion_sa (s : State) (c b : Byte) : (emitCompletion c b s).sa = s.sa := rfl

@[simp] theorem emitCompletion_reg (s : State) (c b : Byte) : (emitCompletion c b s).reg = s.reg := rfl

@[simp] theorem emitCompletion_data0 (s : State) (c b : Byte) : (emitCompletion c b s).data0 = s.data0 := rfl

@[simp] theorem emitCompletion_armed (s : State) (c b : Byte) : (emitCompletion c b s).armed = false := rfl

@[simp] theorem emitCompletion_ctx (s : State) (c b : Byte) : (emitCompletion c b s).ctx = s.ctx := rfl

@[simp] theorem emitCompletion_active (s : State) (c b : Byte) : (emitCompletion c b s).active = s.active := rfl

@[simp] theorem emitCompletion_result (s : State) (c b : Byte) : (emitCompletion c b s).result = s.result := rfl

@[simp] theorem emitCompletion_tmo (s : State) (c b : Byte) : (emitCompletion c b s).tmo = s.tmo := rfl

@[simp] theorem emitCompletion_prb (s : State) (c b : Byte) : (emitCompletion c b s).prb = s.prb := rfl

@[simp] theorem emitCompletion_busHistory (s : State) (c b : Byte) : (emitCompletion c b s).busHistory = s.busHistory := rfl

@[simp] theorem emitCompletion_events (s : State) (c b : Byte) : (emitCompletion c b s).events = s.events ++ [⟨c, b⟩] := rfl

@[simp] theorem emitCompletion_accesses (s : State) (c b : Byte) : (emitCompletion c b s).accesses = s.accesses := rfl

@[simp] theorem emitCompletion_readData (s : State) (c b : Byte) : (emitCompletion c b s).readData = s.readData := rfl

@[simp] theorem emitCompletion_flagAnswers (s : State) (c b : Byte) : (emitCompletion c b s).flagAnswers = s.flagAnswers := rfl

@[simp] theorem emitCompletion_byteAnswers (s : State) (c b : Byte) : (emitCompletion c b s).byteAnswers = s.byteAnswers := rfl

@[simp] theorem emitCompletion_draws (s : State) (c b : Byte) : (emitCompletion c b s).draws = s.draws := rfl

/-! ### report -/

@[simp] theorem report_state (s : State) (code : ResultCode) : (report code s).state = s.state := rfl

@[simp] theorem report_dir (s : State) (code : ResultCode) : (report code s).dir = s.dir := rfl

@[simp] theorem report_sa (s : State) (code : ResultCode) : (report code s).sa = s.sa := rfl

@[simp] theorem report_reg (s : State) (code : ResultCode) : (report code s).reg = s.reg := rfl

@[simp] theorem report_data0 (s : State) (code : ResultCode) : (report code s).data0 = s.data0 := rfl

@[simp] theorem report_armed (s : State) (code : ResultCode) : (report code s).armed = s.armed := rfl

@[simp] theorem report_ctx (s : State) (code : ResultCode) : (report code s).ctx = s.ctx := rfl

@[simp] theorem report_active (s : State) (code : ResultCode) : (report code s).active = s.active := rfl

@[simp] theorem report_result (s : State) (code : ResultCode) : (report code s).result = code := rfl

@[simp] theorem report_tmo (s : State) (code : ResultCode) : (report code s).tmo = s.tmo := rfl

@[simp] theorem report_prb (s : State) (code : ResultCode) : (report code s).prb = s.prb := rfl

@[simp] theorem report_busHistory (s : State) (code : ResultCode) : (report code s).busHistory = s.busHistory := rfl

@[simp] theorem report_events (s : State) (code : ResultCode) : (report code s).events = s.events := rfl

@[simp] theorem report_accesses (s : State) (code : ResultCode) : (report code s).accesses = s.accesses := rfl

@[simp] theorem report_readData (s : State) (code : ResultCode) : (report code s).readData = s.readData := rfl

@[simp] theorem report_flagAnswers (s : State) (code : ResultCode) : (report code s).flagAnswers = s.flagAnswers := rfl

@[simp] theorem report_byteAnswers (s : State) (code : ResultCode) : (report code s).byteAnswers = s.byteAnswers := rfl

@[simp] theorem report_draws (s : State) (code : ResultCode) : (report code s).draws = s.draws := rfl

/-! ### recover -/

@[simp] theorem recover_state (s : State) (code : ResultCode) : (recover code s).state = .aw := rfl

@[simp] theorem recover_dir (s : State) (code : ResultCode) : (recover code s).dir = s.dir := rfl

@[simp] theorem recover_sa (s : State) (code : ResultCode) : (recover code s).sa = s.sa := rfl

@[simp] theorem recover_reg (s : State) (code : ResultCode) : (recover code s).reg = s.reg := rfl

@[simp] theorem recover_data0 (s : State) (code : ResultCode) : (recover code s).data0 = s.data0 := rfl

@[simp] theorem recover_armed (s : State) (code : ResultCode) : (recover code s).armed = false := rfl

@[simp] theorem recover_ctx (s : State) (code : ResultCode) : (recover code s).ctx = s.ctx := rfl

@[simp] theorem recover_active (s : State) (code : ResultCode) : (recover code s).active = false := rfl

@[simp] theorem recover_result (s : State) (code : ResultCode) : (recover code s).result = code := rfl

@[simp] theorem recover_tmo (s : State) (code : ResultCode) : (recover code s).tmo = s.tmo := rfl

@[simp] theorem recover_prb (s : State) (code : ResultCode) : (recover code s).prb = s.prb := rfl

@[simp] theorem recover_busHistory (s : State) (code : ResultCode) : (recover code s).busHistory = s.busHistory ++ [.stop] := rfl

@[simp] theorem recover_events (s : State) (code : ResultCode) : (recover code s).events = s.events := rfl

@[simp] theorem recover_accesses (s : State) (code : ResultCode) : (recover code s).accesses = s.accesses := rfl

@[simp] theorem recover_readData (s : State) (code : ResultCode) : (recover code s).readData = s.readData := rfl

@[simp] theorem recover_flagAnswers (s : State) (code : ResultCode) : (recover code s).flagAnswers = s.flagAnswers := rfl

@[simp] theorem recover_byteAnswers (s : State) (code : ResultCode) : (recover code s).byteAnswers = s.byteAnswers := rfl

@[simp] theorem recover_draws (s : State) (code : ResultCode) : (recover code s).draws = s.draws := rfl

/-! ### enter -/

@[simp] theorem enter_state (s : State) (p : ProtoState) : (enter p s).state = p := rfl

@[simp] theorem enter_dir (s : State) (p : ProtoState) : (enter p s).dir = s.dir := rfl

@[simp] theorem enter_sa (s : State) (p : ProtoState) : (enter p s).sa = s.sa := rfl

@[simp] theorem enter_reg (s : State) (p : ProtoState) : (enter p s).reg = s.reg := rfl

@[simp] theorem enter_data0 (s : State) (p : ProtoState) : (enter p s).data0 = s.data0 := rfl

@[simp] theorem enter_armed (s : State) (p : ProtoState) : (enter p s).armed = s.armed := rfl

@[simp] theorem enter_ctx (s : State) (p : ProtoState) : (enter p s).ctx = s.ctx := rfl

@[simp] theorem enter_active (s : State) (p : ProtoState) : (enter p s).active = s.active := rfl

@[simp] theorem enter_result (s : State) (p : ProtoState) : (enter p s).result = .ok := rfl

@[simp] theorem enter_tmo (s : State) (p : ProtoState) : (enter p s).tmo = s.tmo := rfl

@[simp] theorem enter_prb (s : State) (p : ProtoState) : (enter p s).prb = s.prb := rfl

@[simp] theorem enter_busHistory (s : State) (p : ProtoState) : (enter p s).busHistory = s.busHistory := rfl

@[simp] theorem enter_events (s : State) (p : ProtoState) : (enter p s).events = s.events := rfl

@[simp] theorem enter_accesses (s : State) (p : ProtoState) : (enter p s).accesses = s.accesses := rfl

@[simp] theorem enter_readData (s : State) (p : ProtoState) : (enter p s).readData = s.readData := rfl

@[simp] theorem enter_flagAnswers (s : State) (p : ProtoState) : (enter p s).flagAnswers = s.flagAnswers := rfl

@[simp] theorem enter_byteAnswers (s : State) (p : ProtoState) : (enter p s).byteAnswers = s.byteAnswers := rfl

@[simp] theorem enter_draws (s : State) (p : ProtoState) : (enter p s).draws = s.draws := rfl

/-! ### finish -/

@[simp] theorem finish_state (s : State) : (finish s).state = .aw := rfl

@[simp] theorem finish_dir (s : State) : (finish s).dir = s.dir := rfl

@[simp] theorem finish_sa (s : State) : (finish s).sa = s.sa := rfl

@[simp] theorem finish_reg (s : State) : (finish s).reg = s.reg := rfl

@[simp] theorem finish_data0 (s : State) : (finish s).data0 = s.data0 := rfl

@[simp] theorem finish_armed (s : State) : (finish s).armed = false := rfl

@[simp] theorem finish_ctx (s : State) : (finish s).ctx = s.ctx := rfl

@[simp] theorem finish_active (s : State) : (finish s).active = false := rfl

@[simp] theorem finish_result (s : State) : (finish s).result = .ok := rfl

@[simp] theorem finish_tmo (s : State) : (finish s).tmo = s.tmo := rfl

@[simp] theorem finish_prb (s : State) : (finish s).prb = s.prb := rfl

@[simp] theorem finish_busHistory (s : State) : (finish s).busHistory = s.busHistory := rfl

@[simp] theorem finish_events (s : State) : (finish s).events = s.events := rfl

@[simp] theorem finish_accesses (s : State) : (finish s).accesses = s.accesses := rfl

@[simp] theorem finish_readData (s : State) : (finish s).readData = s.readData := rfl

@[simp] theorem finish_flagAnswers (s : State) : (finish s).flagAnswers = s.flagAnswers := rfl

@[simp] theorem finish_byteAnswers (s : State) : (finish s).byteAnswers = s.byteAnswers := rfl

@[simp] theorem finish_draws (s : State) : (finish s).draws = s.draws := rfl

/-! ### reject -/

@[simp] theorem reject_state (s : State) (code : ResultCode) (t : Bool) : (reject code t s).state = s.state := rfl

@[simp] theorem reject_dir (s : State) (code : ResultCode) (t : Bool) : (reject code t s).dir = s.dir := rfl

@[simp] theorem reject_sa (s : State) (code : ResultCode) (t : Bool) : (reject code t s).sa = s.sa := rfl

@[simp] theorem reject_reg (s : State) (code : ResultCode) (t : Bool) : (reject code t s).reg = s.reg := rfl

@[simp] theorem reject_data0 (s : State) (code : ResultCode) (t : Bool) : (reject code t s).data0 = s.data0 := rfl

@[simp] theorem reject_armed (s : State) (code : ResultCode) (t : Bool) : (reject code t s).armed = s.armed := rfl

@[simp] theorem reject_ctx (s : State) (code : ResultCode) (t : Bool) : (reject code t s).ctx = s.ctx := rfl

@[simp] theorem reject_active (s : State) (code : ResultCode) (t : Bool) : (reject code t s).active = s.active := rfl

@[simp] theorem reject_result (s : State) (code : ResultCode) (t : Bool) : (reject code t s).result = code := rfl

@[simp] theorem reject_tmo (s : State) (code : ResultCode) (t : Bool) : (reject code t s).tmo = t := rfl

@[simp] theorem reject_prb (s : State) (code : ResultCode) (t : Bool) : (reject code t s).prb = s.prb := rfl

@[simp] theorem reject_busHistory (s : State) (code : ResultCode) (t : Bool) : (reject code t s).busHistory = s.busHistory := rfl

@[simp] theorem reject_events (s : State) (code : ResultCode) (t : Bool) : (reject code t s).events = s.events := rfl

@[simp] theorem reject_accesses (s : State) (code : ResultCode) (t : Bool) : (reject code t s).accesses = s.accesses := rfl

@[simp] theorem reject_readData (s : State) (code : ResultCode) (t : Bool) : (reject code t s).readData = s.readData := rfl

@[simp] theorem reject_flagAnswers (s : State) (code : ResultCode) (t : Bool) : (reject code t s).flagAnswers = s.flagAnswers := rfl

@[simp] theorem reject_byteAnswers (s : State) (code : ResultCode) (t : Bool) : (reject code t s).byteAnswers = s.byteAnswers := rfl

@[simp] theorem reject_draws (s : State) (code : ResultCode) (t : Bool) : (reject code t s).draws = s.draws := rfl

/-! ### startBus -/

@[simp] theorem startBus_state (s : State) : (startBus s).state = s.state := rfl

@[simp] theorem startBus_dir (s : State) : (startBus s).dir = s.dir := rfl

@[simp] theorem startBus_sa (s : State) : (startBus s).sa = s.sa := rfl

@[simp] theorem startBus_reg (s : State) : (startBus s).reg = s.reg := rfl

@[simp] theorem startBus_data0 (s : State) : (startBus s).data0 = s.data0 := rfl

@[simp] theorem startBus_armed (s : State) : (startBus s).armed = s.armed := rfl

@[simp] theorem startBus_ctx (s : State) : (startBus s).ctx = s.ctx := rfl

@[simp] theorem startBus_active (s : State) : (startBus s).active = s.active := rfl

@[simp] theorem startBus_result (s : State) : (startBus s).result = s.result := rfl

@[simp] theorem startBus_tmo (s : State) : (startBus s).tmo = s.tmo := rfl

@[simp] theorem startBus_prb (s : State) : (startBus s).prb = s.prb := rfl

@[simp] theorem startBus_busHistory (s : State) : (startBus s).busHistory = s.busHistory ++ [.clrif] ++ [.tx] ++ [.start] ++ [.write (addrByte s.sa .write)] := rfl

@[simp] theorem startBus_events (s : State) : (startBus s).events = s.events := rfl

@[simp] theorem startBus_accesses (s : State) : (startBus s).accesses = s.accesses := rfl

@[simp] theorem startBus_readData (s : State) : (startBus s).readData = s.readData := rfl

@[simp] theorem startBus_flagAnswers (s : State) : (startBus s).flagAnswers = s.flagAnswers := rfl

@[simp] theorem startBus_byteAnswers (s : State) : (startBus s).byteAnswers = s.byteAnswers := rfl

@[simp] theorem startBus_draws (s : State) : (startBus s).draws = s.draws := rfl

/-! ### giveHost -/

@[simp] theorem giveHost_state (s : State) (w : Word) : (giveHost (w, s)).state = s.state := rfl

@[simp] theorem giveHost_dir (s : State) (w : Word) : (giveHost (w, s)).dir = s.dir := rfl

@[simp] theorem giveHost_sa (s : State) (w : Word) : (giveHost (w, s)).sa = s.sa := rfl

@[simp] theorem giveHost_reg (s : State) (w : Word) : (giveHost (w, s)).reg = s.reg := rfl

@[simp] theorem giveHost_data0 (s : State) (w : Word) : (giveHost (w, s)).data0 = s.data0 := rfl

@[simp] theorem giveHost_armed (s : State) (w : Word) : (giveHost (w, s)).armed = s.armed := rfl

@[simp] theorem giveHost_ctx (s : State) (w : Word) : (giveHost (w, s)).ctx = s.ctx := rfl

@[simp] theorem giveHost_active (s : State) (w : Word) : (giveHost (w, s)).active = s.active := rfl

@[simp] theorem giveHost_result (s : State) (w : Word) : (giveHost (w, s)).result = s.result := rfl

@[simp] theorem giveHost_tmo (s : State) (w : Word) : (giveHost (w, s)).tmo = s.tmo := rfl

@[simp] theorem giveHost_prb (s : State) (w : Word) : (giveHost (w, s)).prb = s.prb := rfl

@[simp] theorem giveHost_busHistory (s : State) (w : Word) : (giveHost (w, s)).busHistory = s.busHistory := rfl

@[simp] theorem giveHost_events (s : State) (w : Word) : (giveHost (w, s)).events = s.events := rfl

@[simp] theorem giveHost_accesses (s : State) (w : Word) : (giveHost (w, s)).accesses = s.accesses := rfl

@[simp] theorem giveHost_readData (s : State) (w : Word) : (giveHost (w, s)).readData = s.readData ++ [w] := rfl

@[simp] theorem giveHost_flagAnswers (s : State) (w : Word) : (giveHost (w, s)).flagAnswers = s.flagAnswers := rfl

@[simp] theorem giveHost_byteAnswers (s : State) (w : Word) : (giveHost (w, s)).byteAnswers = s.byteAnswers := rfl

@[simp] theorem giveHost_draws (s : State) (w : Word) : (giveHost (w, s)).draws = s.draws := rfl

end Sys2Proof.Machine
end

