-- ==== Sys2Proof/Laws/Sampling.lean ====
section
/-! SUPPORT. Draws: what a sample, a run of samples and a bounded busy-wait do (R43, R160). -/

namespace Sys2Proof.Machine

/-- An answer depends on the answers given as input and on how many draws were taken, nothing else. -/
theorem flagAt_congr {s t : State} (ha : t.flagAnswers = s.flagAnswers) (hd : t.draws.length = s.draws.length)
    (f : Flag) (k : Nat) : t.flagAt f k = s.flagAt f k := by
  simp only [State.flagAt, ha, hd]

/-- After one sample, the next answers are the ones that followed it. -/
@[simp] theorem flagAt_drawFlag (s : State) (g f : Flag) (k : Nat) :
    (s.drawFlag g).flagAt f k = s.flagAt f (k + 1) := by
  unfold State.flagAt
  simp [Nat.add_assoc, Nat.add_comm 1 k]

/-- After `n` samples, the next answers are the ones that followed them. -/
@[simp] theorem flagAt_afterSamples (s : State) (g f : Flag) (n k : Nat) :
    (s.afterSamples g n).flagAt f k = s.flagAt f (n + k) := by
  unfold State.flagAt State.afterSamples
  simp [Nat.add_assoc]

@[simp] theorem afterSamples_state (s : State) (f : Flag) (n : Nat) : (s.afterSamples f n).state = s.state := rfl

@[simp] theorem afterSamples_dir (s : State) (f : Flag) (n : Nat) : (s.afterSamples f n).dir = s.dir := rfl

@[simp] theorem afterSamples_sa (s : State) (f : Flag) (n : Nat) : (s.afterSamples f n).sa = s.sa := rfl

@[simp] theorem afterSamples_reg (s : State) (f : Flag) (n : Nat) : (s.afterSamples f n).reg = s.reg := rfl

@[simp] theorem afterSamples_data0 (s : State) (f : Flag) (n : Nat) : (s.afterSamples f n).data0 = s.data0 := rfl

@[simp] theorem afterSamples_armed (s : State) (f : Flag) (n : Nat) : (s.afterSamples f n).armed = s.armed := rfl

@[simp] theorem afterSamples_ctx (s : State) (f : Flag) (n : Nat) : (s.afterSamples f n).ctx = s.ctx := rfl

@[simp] theorem afterSamples_active (s : State) (f : Flag) (n : Nat) : (s.afterSamples f n).active = s.active := rfl

@[simp] theorem afterSamples_result (s : State) (f : Flag) (n : Nat) : (s.afterSamples f n).result = s.result := rfl

@[simp] theorem afterSamples_tmo (s : State) (f : Flag) (n : Nat) : (s.afterSamples f n).tmo = s.tmo := rfl

@[simp] theorem afterSamples_prb (s : State) (f : Flag) (n : Nat) : (s.afterSamples f n).prb = s.prb := rfl

@[simp] theorem afterSamples_busHistory (s : State) (f : Flag) (n : Nat) : (s.afterSamples f n).busHistory = s.busHistory := rfl

@[simp] theorem afterSamples_events (s : State) (f : Flag) (n : Nat) : (s.afterSamples f n).events = s.events := rfl

@[simp] theorem afterSamples_accesses (s : State) (f : Flag) (n : Nat) : (s.afterSamples f n).accesses = s.accesses := rfl

@[simp] theorem afterSamples_readData (s : State) (f : Flag) (n : Nat) : (s.afterSamples f n).readData = s.readData := rfl

@[simp] theorem afterSamples_flagAnswers (s : State) (f : Flag) (n : Nat) : (s.afterSamples f n).flagAnswers = s.flagAnswers.drop n := rfl

@[simp] theorem afterSamples_byteAnswers (s : State) (f : Flag) (n : Nat) : (s.afterSamples f n).byteAnswers = s.byteAnswers := rfl

@[simp] theorem afterSamples_draws (s : State) (f : Flag) (n : Nat) : (s.afterSamples f n).draws = s.draws ++ (List.range n).map (fun j => .flag f (s.flagAt f j)) := rfl

theorem afterSamples_zero (s : State) (f : Flag) : s.afterSamples f 0 = s := by
  simp [State.afterSamples]

/-- One sample and then `n` more are `n + 1` samples. -/
theorem afterSamples_succ (s : State) (f : Flag) (n : Nat) :
    (s.drawFlag f).afterSamples f n = s.afterSamples f (n + 1) := by
  simp [State.afterSamples, State.drawFlag, List.range_succ_eq_map, Function.comp_def]
  intro a _
  exact flagAt_drawFlag s f f a

/-- One sample. -/
theorem afterSamples_one (s : State) (f : Flag) : s.afterSamples f 1 = s.drawFlag f := by
  rw [← afterSamples_succ, afterSamples_zero]

/-- Everything a bounded busy-wait can do (R160): it ends Ready at the first ready answer, or times out after `limit`
answers that are not. -/
theorem probe_cases (limit : Nat) (f : Flag) (ready : Bool) (s : State) :
    (∃ k, ReadyAt limit f ready s k ∧ probe limit f ready s = (.ready, s.afterSamples f (k + 1))) ∨
    (NeverReady limit f ready s ∧ probe limit f ready s = (.timedOut, s.afterSamples f limit)) := by
  induction limit generalizing s with
  | zero => exact .inr ⟨fun j hj => absurd hj (Nat.not_lt_zero j), by simp [probe, afterSamples_zero]⟩
  | succ n ih =>
    by_cases h0 : s.flagAt f 0 = ready
    · refine .inl ⟨0, ⟨Nat.succ_pos n, h0, fun j hj => absurd hj (Nat.not_lt_zero j)⟩, ?_⟩
      simp [probe, h0, afterSamples_one]
    · have h0' : s.flagAt f 0 = !ready := by
        cases hr : ready <;> cases hs : s.flagAt f 0 <;> simp_all
      have hp : probe (n + 1) f ready s = probe n f ready (s.drawFlag f) := by simp [probe, h0]
      rcases ih (s.drawFlag f) with ⟨k, ⟨hk, hkr, hkb⟩, hpk⟩ | ⟨hnr, hpt⟩
      · refine .inl ⟨k + 1, ⟨by omega, by simpa using hkr, fun j hj => ?_⟩, by rw [hp, hpk, afterSamples_succ]⟩
        cases j with
        | zero => exact h0'
        | succ j => simpa using hkb j (by omega)
      · refine .inr ⟨fun j hj => ?_, by rw [hp, hpt, afterSamples_succ]⟩
        cases j with
        | zero => exact h0'
        | succ j => simpa using hnr j (by omega)

/-- A probe is Ready at one sample only. -/
theorem readyAt_unique {limit : Nat} {f : Flag} {ready : Bool} {s : State} {k l : Nat}
    (hk : ReadyAt limit f ready s k) (hl : ReadyAt limit f ready s l) : k = l := by
  rcases Nat.lt_trichotomy k l with h | h | h
  · have := hl.2.2 k h; rw [hk.2.1] at this; cases ready <;> simp at this
  · exact h
  · have := hk.2.2 l h; rw [hl.2.1] at this; cases ready <;> simp at this

/-- A probe whose flag gets ready does not time out. -/
theorem not_neverReady {limit : Nat} {f : Flag} {ready : Bool} {s : State} {k : Nat}
    (hk : ReadyAt limit f ready s k) : ¬ NeverReady limit f ready s := by
  intro h
  have := h k hk.1
  rw [hk.2.1] at this
  cases ready <;> simp at this

end Sys2Proof.Machine
end

