-- ==== Sys2Proof/Laws/Commands.lean ====
section
/-! SUPPORT. What each shared operation of the commands can do, said once: the begin (R100 to R104), the stand-alone
probe (R164), the acknowledge detector (R124), the prelude (R122), the service (R120), one step. -/

namespace Sys2Proof.Machine

/-- Everything a begin can do (R100, R104, R208): four rejections and the acceptance. -/
theorem beginWith_cases (limit : Nat) (accept : State → State) (s : State) :
    (s.active = true ∧ beginWith limit accept s = reject .transferNotComplete false s) ∨
    (s.active = false ∧ NeverReady limit .tcf true s ∧
      beginWith limit accept s = reject .transferNotComplete true (s.afterSamples .tcf limit)) ∨
    (s.active = false ∧ ∃ k₁, ReadyAt limit .tcf true s k₁ ∧ NeverReady limit .busy false (s.afterSamples .tcf (k₁ + 1)) ∧
      beginWith limit accept s =
        reject .busBusy true ((s.afterSamples .tcf (k₁ + 1)).afterSamples .busy limit)) ∨
    (s.active = false ∧ ∃ k₁ k₂, ReadyAt limit .tcf true s k₁ ∧
      ReadyAt limit .busy false (s.afterSamples .tcf (k₁ + 1)) k₂ ∧
      NeverReady limit .mst false ((s.afterSamples .tcf (k₁ + 1)).afterSamples .busy (k₂ + 1)) ∧
      beginWith limit accept s = reject .masterModeStillSet true
        (((s.afterSamples .tcf (k₁ + 1)).afterSamples .busy (k₂ + 1)).afterSamples .mst limit)) ∨
    (s.active = false ∧ ∃ k₁ k₂ k₃, ReadyAt limit .tcf true s k₁ ∧
      ReadyAt limit .busy false (s.afterSamples .tcf (k₁ + 1)) k₂ ∧
      ReadyAt limit .mst false ((s.afterSamples .tcf (k₁ + 1)).afterSamples .busy (k₂ + 1)) k₃ ∧
      beginWith limit accept s = accept
        (((s.afterSamples .tcf (k₁ + 1)).afterSamples .busy (k₂ + 1)).afterSamples .mst (k₃ + 1))) := by
  cases ha : s.active with
  | true => exact .inl ⟨rfl, by simp [beginWith, checkStart, ha]⟩
  | false =>
    refine .inr ?_
    rcases probe_cases limit .tcf true s with ⟨k₁, h₁, p₁⟩ | ⟨n₁, p₁⟩
    · rcases probe_cases limit .busy false (s.afterSamples .tcf (k₁ + 1)) with ⟨k₂, h₂, p₂⟩ | ⟨n₂, p₂⟩
      · rcases probe_cases limit .mst false ((s.afterSamples .tcf (k₁ + 1)).afterSamples .busy (k₂ + 1)) with
          ⟨k₃, h₃, p₃⟩ | ⟨n₃, p₃⟩
        · exact .inr (.inr (.inr ⟨rfl, k₁, k₂, k₃, h₁, h₂, h₃, by
            simp [beginWith, checkStart, checkBus, checkMaster, ha, p₁, p₂, p₃]⟩))
        · exact .inr (.inr (.inl ⟨rfl, k₁, k₂, h₁, h₂, n₃, by
            simp [beginWith, checkStart, checkBus, checkMaster, ha, p₁, p₂, p₃]⟩))
      · exact .inr (.inl ⟨rfl, k₁, h₁, n₂, by simp [beginWith, checkStart, checkBus, ha, p₁, p₂]⟩)
    · exact .inl ⟨rfl, n₁, by simp [beginWith, checkStart, ha, p₁]⟩

/-- Everything a stand-alone probe can do (R161 to R164). -/
theorem probeCommand_cases (limit : Nat) (f : Flag) (ready onReady : Bool) (s : State) :
    (∃ k, ReadyAt limit f ready s k ∧ probeCommand limit f ready onReady s =
      { s.afterSamples f (k + 1) with prb := onReady, result := .ok, tmo := false }) ∨
    (NeverReady limit f ready s ∧ probeCommand limit f ready onReady s =
      { s.afterSamples f limit with prb := !onReady, result := .hardwareTimeout, tmo := true }) := by
  rcases probe_cases limit f ready s with ⟨k, h, p⟩ | ⟨n, p⟩
  · exact .inl ⟨k, h, by simp [probeCommand, p]⟩
  · exact .inr ⟨n, by simp [probeCommand, p]⟩

/-- Everything a row with an acknowledge check can do (R124, R125). -/
theorem withAck_cases (row : State → State) (s : State) :
    (s.flagAt .acked 0 = true ∧ withAck row s = row (s.drawFlag .acked)) ∨
    (s.flagAt .acked 0 = false ∧ withAck row s = recover .acknowledgeMissing (s.drawFlag .acked)) := by
  cases h : s.flagAt .acked 0 <;> simp [withAck, nackRecover, h]

/-- Everything the prelude can do (R122): it appends at most CLRIF and CLRARB, and draws ARBL once. -/
theorem prelude_eq (iif : Bool) (s : State) :
    prelude iif s =
      { s.drawFlag .arbl with
        busHistory := s.busHistory ++ (if iif then [.clrif] else []) ++
          (if s.flagAt .arbl 0 then [.clrarb] else []) } := by
  have hd : (busAct .clrif s).drawFlag .arbl = busAct .clrif (s.drawFlag .arbl) := rfl
  have hf : (busAct .clrif s).flagAt .arbl 0 = s.flagAt .arbl 0 := rfl
  cases iif <;> cases h : s.flagAt .arbl 0 <;>
    simp only [prelude, clearArbitration, clearInterrupt, sample_fst, sample_snd, hd, hf, h, if_true, if_false,
      Bool.false_eq_true] <;>
    (simp [busAct]; try rfl)

@[simp] theorem prelude_state (iif : Bool) (s : State) : (prelude iif s).state = s.state := by rw [prelude_eq]; rfl

@[simp] theorem prelude_dir (iif : Bool) (s : State) : (prelude iif s).dir = s.dir := by rw [prelude_eq]; rfl

@[simp] theorem prelude_sa (iif : Bool) (s : State) : (prelude iif s).sa = s.sa := by rw [prelude_eq]; rfl

@[simp] theorem prelude_reg (iif : Bool) (s : State) : (prelude iif s).reg = s.reg := by rw [prelude_eq]; rfl

@[simp] theorem prelude_data0 (iif : Bool) (s : State) : (prelude iif s).data0 = s.data0 := by rw [prelude_eq]; rfl

@[simp] theorem prelude_armed (iif : Bool) (s : State) : (prelude iif s).armed = s.armed := by rw [prelude_eq]; rfl

@[simp] theorem prelude_ctx (iif : Bool) (s : State) : (prelude iif s).ctx = s.ctx := by rw [prelude_eq]; rfl

@[simp] theorem prelude_active (iif : Bool) (s : State) : (prelude iif s).active = s.active := by rw [prelude_eq]; rfl

@[simp] theorem prelude_result (iif : Bool) (s : State) : (prelude iif s).result = s.result := by rw [prelude_eq]; rfl

@[simp] theorem prelude_tmo (iif : Bool) (s : State) : (prelude iif s).tmo = s.tmo := by rw [prelude_eq]; rfl

@[simp] theorem prelude_prb (iif : Bool) (s : State) : (prelude iif s).prb = s.prb := by rw [prelude_eq]; rfl

@[simp] theorem prelude_events (iif : Bool) (s : State) : (prelude iif s).events = s.events := by rw [prelude_eq]; rfl

@[simp] theorem prelude_accesses (iif : Bool) (s : State) : (prelude iif s).accesses = s.accesses := by rw [prelude_eq]; rfl

@[simp] theorem prelude_readData (iif : Bool) (s : State) : (prelude iif s).readData = s.readData := by rw [prelude_eq]; rfl

@[simp] theorem prelude_byteAnswers (iif : Bool) (s : State) : (prelude iif s).byteAnswers = s.byteAnswers := by rw [prelude_eq]; rfl

@[simp] theorem prelude_busHistory (iif : Bool) (s : State) : (prelude iif s).busHistory =
    s.busHistory ++ (if iif then [.clrif] else []) ++ (if s.flagAt .arbl 0 then [.clrarb] else []) := by
  rw [prelude_eq]

@[simp] theorem prelude_flagAnswers (iif : Bool) (s : State) : (prelude iif s).flagAnswers = s.flagAnswers.tail := by
  rw [prelude_eq]; rfl

@[simp] theorem prelude_draws (iif : Bool) (s : State) :
    (prelude iif s).draws = s.draws ++ [.flag .arbl (s.flagAt .arbl 0)] := by
  rw [prelude_eq]; rfl

/-- After the prelude, the next answers are the ones that followed its ARBL sample. -/
@[simp] theorem flagAt_prelude (iif : Bool) (s : State) (f : Flag) (k : Nat) :
    (prelude iif s).flagAt f k = s.flagAt f (k + 1) := by
  rw [flagAt_congr (s := s.drawFlag .arbl) (by simp) (by simp), flagAt_drawFlag]

/-- Everything SVC can do (R120, R121): nothing at all, one sample, or the prelude and one row. -/
theorem service_cases (s : State) :
    (s.active = false ∧ service s = s) ∨
    (s.active = true ∧ pend s (s.flagAt .iicif 0) = false ∧ service s = s.drawFlag .iicif) ∨
    (s.active = true ∧ pend s (s.flagAt .iicif 0) = true ∧
      service s = runRow (decodeStep s.dir s.state) (prelude (s.flagAt .iicif 0) (s.drawFlag .iicif))) := by
  cases ha : s.active <;> cases hp : pend s (s.flagAt .iicif 0) <;> simp [service, ha, hp]

/-- Reading the window changes no engine field, issues nothing and emits nothing; it may take one sample (R63). -/
theorem readWindow_cases (off : Int) (s : State) :
    (readWindow off s).2 = s ∨ (s.active = true ∧ off = 4 ∧ (readWindow off s).2 = s.drawFlag .iicif) := by
  unfold readWindow readStatus
  by_cases h4 : off = 4
  · cases ha : s.active <;> simp [h4]
  · by_cases h8 : off = 8 <;> simp [h4, h8]

/-- Everything one step can do (R61, R64, R66): nothing waits, a read, an ignored write, or a command. -/
theorem step_cases {s t : State} (h : step s = .next t) :
    (s.accesses = [] ∧ t = s) ∨
    (∃ a rest, s.accesses = a :: rest ∧ a.op = .read ∧ t = giveHost (readWindow a.off { s with accesses := rest })) ∨
    (∃ a rest w, s.accesses = a :: rest ∧ a.op = .write w ∧ a.off ≠ 0 ∧ t = { s with accesses := rest }) ∨
    (∃ a rest w i, s.accesses = a :: rest ∧ a.op = .write w ∧ a.off = 0 ∧ a.width = 4 ∧ decodeCmd w = .ok i ∧
      exec i { s with accesses := rest } = .next t) := by
  unfold step stepAccess at h
  cases hs : s.accesses with
  | nil => rw [hs] at h; cases h; exact .inl ⟨rfl, rfl⟩
  | cons a rest =>
    rw [hs] at h
    refine .inr ?_
    simp only [hostAccess] at h
    split at h
    · split at h
      · rename_i hal
        unfold wordAccess at h
        cases hop : a.op with
        | read => rw [hop] at h; cases h; exact .inl ⟨a, rest, rfl, hop, rfl⟩
        | write w =>
          rw [hop] at h
          by_cases ho : a.off = 0
          · simp only [ho, writeCommand] at h
            cases hd : decodeCmd w with
            | ok i =>
              simp only [hd] at h
              have hw : a.width = 4 := by simp [Access.isAlignedWord] at hal; exact hal.1
              exact .inr (.inr ⟨a, rest, w, i, rfl, hop, ho, hw, hd, by simpa using h⟩)
            | error e => simp [hd] at h
          · simp only [beq_iff_eq, ho, if_false] at h
            cases h
            exact .inr (.inl ⟨a, rest, w, rfl, hop, ho, rfl⟩)
      · cases h
    · cases h

end Sys2Proof.Machine
end

