-- ==== Sys2Proof/Laws/Encoding.lean ====
section
/-! SUPPORT. The command word as a number: its fields are the digits of a mixed-radix numeral (R81, R91). The encoding
proofs are arithmetic over these lemmas. -/

namespace Sys2Proof

/-- A field of a word, as a number (R10). -/
theorem bits_toNat (w : Word) (lo n : Nat) : (Word.bits w lo n).toNat = w.toNat / 2 ^ lo % 2 ^ n := by
  simp [Word.bits, Nat.shiftRight_eq_div_pow]

theorem op_toNat (w : Word) : (Word.op w).toNat = w.toNat % 16 := by
  simp [Word.op, bits_toNat]

theorem fieldSA_toNat (w : Word) : (Word.fieldSA w).toNat = w.toNat / 2 ^ 4 % 2 ^ 7 := bits_toNat w 4 7

theorem fieldRG_toNat (w : Word) : (Word.fieldRG w).toNat = w.toNat / 2 ^ 11 % 2 ^ 8 := bits_toNat w 11 8

theorem fieldDT_toNat (w : Word) : (Word.fieldDT w).toNat = w.toNat / 2 ^ 19 % 2 ^ 8 := bits_toNat w 19 8

theorem fieldARM_iff (w : Word) : Word.fieldARM w = true ↔ w.toNat / 2 ^ 27 % 2 = 1 := by
  simp [Word.fieldARM, BitVec.getLsbD, Nat.testBit, Nat.shiftRight_eq_div_pow]

/-- The bits from `lo` up are all 0 exactly when the word is below `2 ^ lo` (R87). -/
theorem zeroFrom_iff (w : Word) (lo : Nat) : Word.zeroFrom w lo = true ↔ w.toNat < 2 ^ lo := by
  unfold Word.zeroFrom
  rw [beq_iff_eq, BitVec.toNat_eq]
  simp [Nat.shiftRight_eq_div_pow, Nat.div_eq_zero_iff]

/-- A field shifted above the bits of what lies below it adds to it. -/
theorem or_shiftLeft_eq_add {a n : Nat} (b : Nat) (h : a < 2 ^ n) : a ||| b <<< n = a + b * 2 ^ n := by
  rw [Nat.or_comm, ← Nat.shiftLeft_add_eq_or_of_lt h, Nat.shiftLeft_eq, Nat.add_comm]

/-- A narrow value in a word, shifted by `n` where it still fits. -/
theorem toNat_shifted {m : Nat} (x : BitVec m) (n : Nat) (h : m + n ≤ 32) :
    (x.zeroExtend 32 <<< n).toNat = x.toNat <<< n := by
  have hx : x.toNat < 2 ^ m := x.isLt
  have h1 : x.toNat * 2 ^ n < 2 ^ 32 :=
    calc x.toNat * 2 ^ n < 2 ^ m * 2 ^ n := Nat.mul_lt_mul_of_pos_right hx (Nat.two_pow_pos n)
      _ = 2 ^ (m + n) := (Nat.pow_add 2 m n).symm
      _ ≤ 2 ^ 32 := Nat.pow_le_pow_right (by decide) h
  have h2 : x.toNat < 2 ^ 32 := Nat.lt_of_lt_of_le hx (Nat.pow_le_pow_right (by decide) (by omega))
  simp only [BitVec.toNat_shiftLeft, BitVec.toNat_setWidth, Nat.mod_eq_of_lt h2, Nat.shiftLeft_eq,
    Nat.mod_eq_of_lt h1]

/-- The packed word is the sum of its shifted fields: no two overlap (R81, R91). -/
theorem packCmd_toNat (op : BitVec 4) (sa : SlaveAddr) (rg dt : Byte) (arm : Bool) :
    (packCmd op sa rg dt arm).toNat
      = op.toNat + sa.toNat * 2 ^ 4 + rg.toNat * 2 ^ 11 + dt.toNat * 2 ^ 19 + arm.toNat * 2 ^ 27 := by
  have ho : op.toNat < 16 := op.isLt
  have hs : sa.toNat < 128 := sa.isLt
  have hr : rg.toNat < 256 := rg.isLt
  have hd : dt.toNat < 256 := dt.isLt
  have hop : (op.zeroExtend 32).toNat = op.toNat := by simp; omega
  have harm : (BitVec.ofBool arm).toNat = arm.toNat := by cases arm <;> rfl
  rw [packCmd, BitVec.toNat_or, BitVec.toNat_or, BitVec.toNat_or, BitVec.toNat_or, hop,
    toNat_shifted sa 4 (by decide), toNat_shifted rg 11 (by decide), toNat_shifted dt 19 (by decide),
    toNat_shifted (BitVec.ofBool arm) 27 (by decide), harm,
    or_shiftLeft_eq_add (a := op.toNat) (n := 4) _ (by omega), or_shiftLeft_eq_add (n := 11) _ (by omega),
    or_shiftLeft_eq_add (n := 19) _ (by omega), or_shiftLeft_eq_add (n := 27) _ (by omega)]

end Sys2Proof
end

