-- ==== Sys2Proof/Laws/PerInstr.lean ====
section
/-! SUPPORT. Statements made of every instruction, one lemma per constructor. The family `FixedBits`: the encoder puts
into an instruction's encoding the bits that its row of spec/opcode_table.json fixes. -/

namespace Sys2Proof

/-- A field of a row that the table fixes: bits `hi` to `lo` hold `value`. -/
structure FixedField where
  hi : Nat
  lo : Nat
  value : Nat
  deriving DecidableEq, Repr

/-- The "fixed" fields of each row of spec/opcode_table.json. -/
def fixedFields : Instr → List FixedField
  | .bwr _ _ _ => [⟨3, 0, 1⟩, ⟨31, 27, 0⟩]
  | .brd _ _ _ _ => [⟨3, 0, 2⟩, ⟨31, 28, 0⟩]
  | .svc => [⟨31, 0, 3⟩]
  | .ptc => [⟨31, 0, 4⟩]
  | .pbb => [⟨31, 0, 5⟩]
  | .pmm => [⟨31, 0, 6⟩]
  | .t1 _ => [⟨2, 0, 0⟩]
  | .t2 => [⟨3, 0, 1⟩]
  | .t3 => [⟨3, 0, 2⟩]
  | .t4 => [⟨3, 0, 3⟩]
  | .t5 => [⟨3, 0, 9⟩]
  | .t6 => [⟨3, 0, 12⟩]
  | .t7 => [⟨3, 0, 13⟩]
  | .t8 => [⟨3, 0, 14⟩]
  | .uxWrite _ => [⟨3, 2, 1⟩]
  | .uxRead _ => [⟨3, 1, 5⟩]
  | .uxReadSeven => [⟨3, 0, 15⟩]

namespace Laws.FixedBits

/-- Every fixed field of the row stands in the encoding. -/
def Statement (i : Instr) : Prop :=
  ∀ f ∈ fixedFields i, (encode i).toNat / 2 ^ f.lo % 2 ^ (f.hi - f.lo + 1) = f.value

/-- The numeral of a packed command: its low four bits are OP and what stands above bit 26 is ARM. -/
theorem packCmd_ends (op : BitVec 4) (sa : SlaveAddr) (rg dt : Byte) (arm : Bool) :
    (packCmd op sa rg dt arm).toNat % 16 = op.toNat ∧ (packCmd op sa rg dt arm).toNat / 2 ^ 27 = arm.toNat := by
  have ho : op.toNat < 16 := op.isLt
  have hs : sa.toNat < 128 := sa.isLt
  have hr : rg.toNat < 256 := rg.isLt
  have hd : dt.toNat < 256 := dt.isLt
  rw [packCmd_toNat]
  constructor <;> omega

theorem bwr (sa : SlaveAddr) (rg data : Byte) : Statement (.bwr sa rg data) := by
  obtain ⟨h1, h2⟩ := packCmd_ends 1#4 sa rg data false
  simp only [Statement, fixedFields, encode, Code.toNat, List.mem_cons, List.not_mem_nil, or_false, forall_eq_or_imp,
    forall_eq]
  simp only [Bool.toNat_false, BitVec.toNat_ofNat] at h1 h2
  omega

theorem brd (sa : SlaveAddr) (rg ctx : Byte) (arm : Bool) : Statement (.brd sa rg ctx arm) := by
  obtain ⟨h1, h2⟩ := packCmd_ends 2#4 sa rg ctx arm
  have ha : arm.toNat < 2 := by cases arm <;> decide
  simp only [Statement, fixedFields, encode, Code.toNat, List.mem_cons, List.not_mem_nil, or_false, forall_eq_or_imp,
    forall_eq]
  simp only [BitVec.toNat_ofNat] at h1 h2
  omega

theorem svc : Statement .svc := by unfold Statement; decide

theorem ptc : Statement .ptc := by unfold Statement; decide

theorem pbb : Statement .pbb := by unfold Statement; decide

theorem pmm : Statement .pmm := by unfold Statement; decide

theorem t1 (dir : Dir) : Statement (.t1 dir) := by unfold Statement; cases dir <;> decide

theorem t2 : Statement .t2 := by unfold Statement; decide

theorem t3 : Statement .t3 := by unfold Statement; decide

theorem t4 : Statement .t4 := by unfold Statement; decide

theorem t5 : Statement .t5 := by unfold Statement; decide

theorem t6 : Statement .t6 := by unfold Statement; decide

theorem t7 : Statement .t7 := by unfold Statement; decide

theorem t8 : Statement .t8 := by unfold Statement; decide

theorem uxWrite (low : BitVec 2) : Statement (.uxWrite low) := by unfold Statement; revert low; decide

theorem uxRead (low : BitVec 1) : Statement (.uxRead low) := by unfold Statement; revert low; decide

theorem uxReadSeven : Statement .uxReadSeven := by unfold Statement; decide

end Laws.FixedBits

end Sys2Proof
end

