-- ==== Sys2Proof/Tests/Slice0.lean ====
section
/-! SUPPORT. The model's own tests: well-formedness smoke tests, words written out from the spec's encodings, vectors of
spec/95_test_vectors.md (named E-, S-, V-, PR-, M- there), and a witness for the hypotheses of each statement. -/

open Sys2Proof Sys2Proof.Machine

namespace Sys2Proof.Tests

/-! ### Helpers -/

/-- The state an outcome goes on with. -/
def after (o : Host.Outcome State Fault Refusal) : Option State :=
  match o with
  | .next s => some s
  | _ => none

/-- The fields a service-step vector lists (95_test_vectors.md, section 4), the actions and the events. -/
structure Seen where
  state : ProtoState
  active : Bool
  armed : Bool
  data0 : Byte
  result : ResultCode
  bus : List BusAction
  events : List Completion
  deriving DecidableEq, Repr

def seen (o : Host.Outcome State Fault Refusal) : Option Seen :=
  (after o).map fun s => ⟨s.state, s.active, s.armed, s.data0, s.result, s.busHistory, s.events⟩

/-- A write start state of section 4, with the adapter's flag answers. -/
def writing (p : ProtoState) (flags : List Bool) : State :=
  { State.reset with state := p, sa := 0x1D#7, reg := 0x2A#8, data0 := 0x01#8, active := true, flagAnswers := flags }

/-- A read start state of section 4, with the adapter's flag and byte answers. -/
def reading (p : ProtoState) (flags : List Bool) (bytes : List Byte) : State :=
  { State.reset with
    state := p, dir := .read, sa := 0x1D#7, reg := 0x01#8, data0 := 0x77#8, ctx := 0x02#8, armed := true, active := true
    flagAnswers := flags, byteAnswers := bytes }

/-- Reset, with the adapter's flag answers. -/
def answering (flags : List Bool) : State := { State.reset with flagAnswers := flags }

/-! ### Well-formedness: each check refuses an ill-formed term -/

theorem test_wf_rejects_stepRow_as_command : (Instr.t1 .write).isCommand = false := by decide

theorem test_wf_rejects_command_as_stepRow : Instr.svc.isStepRow = false := by decide

theorem test_wf_rejects_sa : (Asm.bwr 0x80 0 0).wf = false := by decide

theorem test_wf_rejects_rg : (Asm.brdN 0x7F 0x100).wf = false := by decide

theorem test_wf_rejects_data : (Asm.bwr 0 0 0x100).wf = false := by decide

theorem test_wf_rejects_ctx : (Asm.brd 0 0 0x100).wf = false ∧ (Asm.brdNCtx 0 0 0x100).wf = false := by decide

theorem test_wf_accepts_extremes : (Asm.bwr 0x7F 0xFF 0xFF).wf = true := by decide

/-! ### Decoding: words written out from the patterns of spec/opcode_table.json (bit 31 first; bit 3 first) -/

-- BWR 00000 dddddddd rrrrrrrr aaaaaaa 0001, vectors E-1 and E-4
theorem test_decode_bwr : decodeCmd 0b00000000000010010101000111010001#32 = .ok (.bwr 0x1D#7 0x2A#8 0x01#8) := by decide

theorem test_decode_bwr_max : decodeCmd 0b00000111111111111111111111110001#32 = .ok (.bwr 0x7F#7 0xFF#8 0xFF#8) := by
  decide

-- BRD 0000 m cccccccc rrrrrrrr aaaaaaa 0010, vectors E-6 and E-8
theorem test_decode_brd : decodeCmd 0b00001000000110000000100111010010#32 = .ok (.brd 0x1D#7 0x01#8 0x03#8 true) := by
  decide

theorem test_decode_brd_unarmed :
    decodeCmd 0b00000000001010000000100111010010#32 = .ok (.brd 0x1D#7 0x01#8 0x05#8 false) := by decide

-- SVC, PTC, PBB, PMM, vector E-11
theorem test_decode_bare :
    decodeCmd 0b00000000000000000000000000000011#32 = .ok .svc ∧
    decodeCmd 0b00000000000000000000000000000100#32 = .ok .ptc ∧
    decodeCmd 0b00000000000000000000000000000101#32 = .ok .pbb ∧
    decodeCmd 0b00000000000000000000000000000110#32 = .ok .pmm := by decide

-- reserved words, vectors E-12 to E-17
theorem test_decode_reserved :
    decodeCmd 0x00000000#32 = .error (.op 0#4) ∧ decodeCmd 0x00000007#32 = .error (.op 7#4) ∧
    decodeCmd 0x0000000F#32 = .error (.op 15#4) ∧ decodeCmd 0x080951D1#32 = .error (.mustBeZero 1#4) ∧
    decodeCmd 0x100009D2#32 = .error (.mustBeZero 2#4) ∧ decodeCmd 0x00000013#32 = .error (.mustBeZero 3#4) ∧
    decodeCmd 0x80000004#32 = .error (.mustBeZero 4#4) := by decide

-- the STEP rows, {DIR, STATE} from 0b0000 to 0b1111 (95_test_vectors.md, section 2)
theorem test_decode_steps_write :
    decodeTableWord 8 0b0000 = some (.t1 .write) ∧ decodeTableWord 8 0b0001 = some .t2 ∧
    decodeTableWord 8 0b0010 = some .t3 ∧ decodeTableWord 8 0b0011 = some .t4 ∧
    decodeTableWord 8 0b0100 = some (.uxWrite 0b00#2) ∧ decodeTableWord 8 0b0101 = some (.uxWrite 0b01#2) ∧
    decodeTableWord 8 0b0110 = some (.uxWrite 0b10#2) ∧ decodeTableWord 8 0b0111 = some (.uxWrite 0b11#2) := by decide

theorem test_decode_steps_read :
    decodeTableWord 8 0b1000 = some (.t1 .read) ∧ decodeTableWord 8 0b1001 = some .t5 ∧
    decodeTableWord 8 0b1010 = some (.uxRead 0b0#1) ∧ decodeTableWord 8 0b1011 = some (.uxRead 0b1#1) ∧
    decodeTableWord 8 0b1100 = some .t6 ∧ decodeTableWord 8 0b1101 = some .t7 ∧
    decodeTableWord 8 0b1110 = some .t8 ∧ decodeTableWord 8 0b1111 = some .uxReadSeven := by decide

-- nothing above the four bits of a STEP vector, and no row wider than a word
theorem test_decode_no_row : decodeTableWord 8 0x10 = none ∧ decodeTableWord 40 1 = none := by decide

-- vectors E-2, E-10 (k = 5), E-18
theorem test_assemble :
    assemble (.bwr 0x1D 0x0E 0x00) = some 0x000071D1#32 ∧ assemble (.brd 0x1D 0x06 5) = some 0x082831D2#32 ∧
    assemble (.bwr 0x80 0 0) = none := by decide

/-! ### Begin (section 3); the operations take PROBE_LIMIT as an argument, 3 here -/

-- S-1
theorem test_bwr_accepted : seen (exec (.bwr 0x1D#7 0x2A#8 0x01#8) (answering [true, false, false])) =
    some ⟨.aw, true, false, 0x01#8, .ok, [.clrif, .tx, .start, .write 0x3A#8], []⟩ := by decide

-- S-2: in flight, no sample, only RESULT and TO change
theorem test_bwr_in_flight :
    (after (exec (.bwr 0x1D#7 0x2A#8 0x01#8) (reading .cw [true] []))) =
      some { reading .cw [true] [] with result := .transferNotComplete, tmo := false } := by decide

-- S-10: BRD keeps DATA0 and arms the completion
theorem test_brd_accepted :
    seen (exec (.brd 0x1D#7 0x01#8 0x00#8 true) { answering [true, false, false] with dir := .read, data0 := 0x5A#8 }) =
      some ⟨.aw, true, true, 0x5A#8, .ok, [.clrif, .tx, .start, .write 0x3A#8], []⟩ := by decide

-- S-12: a rejected BRD is not armed, and the samples are TCF=1 BUSY=1 ×3
theorem test_brd_rejected :
    beginWith 3 (acceptRead 0x1D#7 0x01#8 0x07#8 true) (answering [true, true, true, true]) =
      { State.reset with
        result := .busBusy, tmo := true
        draws := [.flag .tcf true, .flag .busy true, .flag .busy true, .flag .busy true] } := by decide

-- S-4 (a 1 in the last allowed sample is Ready) and S-7 (MasterModeStillSet)
theorem test_begin_probes :
    (beginWith 3 (acceptWrite 0x1D#7 0x2A#8 0x01#8) (answering [false, false, true, false, false])).active = true ∧
    (beginWith 3 (acceptWrite 0x1D#7 0x2A#8 0x01#8) (answering [true, false, true, true, true])).result =
      .masterModeStillSet := by decide

/-! ### The service step (section 4) -/

-- V-1, V-2
theorem test_svc_t1_write : seen (exec .svc (writing .aw [true, false, true])) =
    some ⟨.cw, true, false, 0x01#8, .ok, [.clrif, .write 0x2A#8], []⟩ := by decide

theorem test_t1_read : seen (exec (.t1 .read) (reading .aw [true] [])) =
    some ⟨.cw, true, true, 0x77#8, .ok, [.write 0x01#8], []⟩ := by decide

-- V-12: arbitration lost, the flag is cleared and the step goes on
theorem test_svc_t2_arbitration : seen (exec .svc (writing .cw [true, true, true])) =
    some ⟨.dw, true, false, 0x01#8, .ok, [.clrif, .clrarb, .write 0x01#8], []⟩ := by decide

theorem test_t2 : seen (exec .t2 (writing .cw [true])) =
    some ⟨.dw, true, false, 0x01#8, .ok, [.write 0x01#8], []⟩ := by decide

-- V-4
theorem test_t3 : seen (exec .t3 (writing .dw [true])) = some ⟨.wd, true, false, 0x01#8, .ok, [], []⟩ := by decide

-- V-5: terminal, pending with IICIF = 0
theorem test_t4 : seen (exec .svc (writing .wd [false, false])) =
    some ⟨.aw, false, false, 0x01#8, .ok, [.stop], []⟩ := by decide

-- V-7
theorem test_t5 : seen (exec .t5 (reading .cw [true] [])) =
    some ⟨.ar, true, true, 0x77#8, .ok, [.rstart, .write 0x3B#8], []⟩ := by decide

-- V-8: the dummy byte reaches no field
theorem test_t6 : seen (exec .t6 (reading .ar [true] [0xA5#8])) =
    some ⟨.rs, true, true, 0x77#8, .ok, [.rx, .read], []⟩ := by decide

-- V-9, V-10
theorem test_t7_armed : seen (exec .t7 (reading .rs [] [0x5A#8])) =
    some ⟨.dr, true, false, 0x5A#8, .ok, [.read, .stop, .tx], [⟨0x02#8, 0x5A#8⟩]⟩ := by decide

theorem test_t7_unarmed : seen (exec .t7 { reading .rs [] [0x5A#8] with armed := false }) =
    some ⟨.dr, true, false, 0x5A#8, .ok, [.read, .stop, .tx], []⟩ := by decide

-- V-11
theorem test_t8 : seen (exec .svc { reading .dr [false, false] [] with armed := false, data0 := 0x5A#8 }) =
    some ⟨.aw, false, false, 0x5A#8, .ok, [], []⟩ := by decide

-- V-17: an armed completion is dropped
theorem test_t5_nack : seen (exec .svc (reading .cw [true, false, false] [])) =
    some ⟨.aw, false, false, 0x77#8, .acknowledgeMissing, [.clrif, .stop], []⟩ := by decide

-- V-20, V-24, V-26
theorem test_ux_write : seen (exec .svc (writing .rs [false, false])) =
    some ⟨.aw, false, false, 0x01#8, .unexpectedProtocolState, [.stop], []⟩ := by decide

theorem test_ux_read : seen (exec .svc (reading .wd [false, false] [])) =
    some ⟨.aw, false, false, 0x77#8, .unexpectedProtocolState, [.stop], []⟩ := by decide

theorem test_ux_seven : seen (exec .svc (reading .noState [true, false] [])) =
    some ⟨.aw, false, false, 0x77#8, .unexpectedProtocolState, [.clrif, .stop], []⟩ := by decide

-- V-27, V-29
theorem test_svc_not_pending : after (exec .svc { writing .cw [false] with result := .hardwareTimeout }) =
    some { writing .cw [] with result := .hardwareTimeout, draws := [.flag .iicif false] } := by decide

theorem test_svc_idle : after (exec .svc (answering [true])) = some (answering [true]) := by decide

/-! ### Probes (section 5) -/

-- PR-1, PR-4, PR-6 on the meanings
theorem test_ptc_ready : (after (exec .ptc (answering [true]))).map (fun s => (s.prb, s.result, s.tmo)) =
    some (true, .ok, false) := by decide

theorem test_pbb_ready : (after (exec .pbb (answering [false]))).map (fun s => (s.prb, s.result, s.tmo)) =
    some (false, .ok, false) := by decide

theorem test_pmm_ready : (after (exec .pmm (answering [false]))).map (fun s => (s.prb, s.result, s.tmo)) =
    some (false, .ok, false) := by decide

-- PR-3, PR-5 with PROBE_LIMIT = 3; the STATUS word after
theorem test_ptc_timeout :
    statusWord (probeCommand 3 .tcf true true (answering [false, false, false])) false = 0x00000C00#32 := by decide

theorem test_pbb_timeout :
    statusWord (probeCommand 3 .busy false false (answering [true, true, true])) false = 0x00000C80#32 := by decide

-- PR-9: during a write, the packet stays; STATUS with IICIF = 1
theorem test_pmm_in_flight :
    statusWord (probeCommand 3 .mst false false (writing .aw [true, true, true])) true = 0x00000CB0#32 := by decide

/-! ### The register window (section 6) -/

-- M-3, M-4: a STATUS read takes one IICIF sample
theorem test_read_status :
    (after (hostAccess ⟨.read, 4, 4⟩ (reading .rs [true] []))).map (·.readData) = some [0x0000007D#32] ∧
    (after (hostAccess ⟨.read, 4, 4⟩ (reading .rs [false] []))).map (·.readData) = some [0x0000005D#32] := by decide

-- M-5, M-6
theorem test_read_terminal_and_packet :
    (after (hostAccess ⟨.read, 4, 4⟩ (writing .wd [false]))).map (·.readData) = some [0x00000033#32] ∧
    packetWord { State.reset with sa := 0x1D#7, reg := 0x01#8, data0 := 0x5A#8, ctx := 0x03#8 } = 0x035A011D#32 := by
  decide

-- M-8: a write to STATUS has no effect
theorem test_write_status : after (hostAccess ⟨.write 0xFFFFFFFF#32, 4, 4⟩ (writing .cw [])) = some (writing .cw []) := by
  decide

/-- What a stop is, for M-9. -/
def refusedAccess (o : Host.Outcome State Fault Refusal) : Bool :=
  match o with
  | .refused .reservedAccess => true
  | _ => false

-- M-9: narrow and misaligned accesses
theorem test_reserved_access :
    refusedAccess (hostAccess ⟨.read, 4, 1⟩ State.reset) = true ∧
    refusedAccess (hostAccess ⟨.write 3#32, 0, 2⟩ State.reset) = true ∧
    refusedAccess (hostAccess ⟨.read, 2, 4⟩ State.reset) = true := by decide

/-! ### Steps from reset -/

theorem test_step_from_reset_bwr :
    (after (step ((answering [true, false, false]).withFetchWord 32 0x000951D1))).map (·.busHistory) =
      some [.clrif, .tx, .start, .write 0x3A#8] := by decide

theorem test_step_from_reset_t7 :
    (after (step (({ State.reset with byteAnswers := [0x5A#8], flagAnswers := [false] } : State).withFetchWord 8 0xD))).map
      (·.data0) = some 0x5A#8 := by decide

/-! ### The reference client -/

-- R180, R181: the samples of the spec's prose, and the extremes
theorem test_axis : axis 0x00#8 0x10#8 = 16 ∧ axis 0xFF#8 0xF0#8 = -16 ∧ axis 0x80#8 0x00#8 = -32768 ∧
    axis 0x7F#8 0xFF#8 = 32767 := by decide

-- P5, first turn: init a is written, accepted, and the step advances
theorem test_client_first_turn :
    (match Client.loopTurn ⟨0x0E#8, 0x01#8⟩ Client.reset (answering [true, false, false, true]) with
      | .next (c, s) => some (c.step, s.busHistory)
      | _ => none) = some (1, [.clrif, .tx, .start, .write 0x3A#8]) := by decide

/-! ### Witnesses: for each statement with hypotheses, a state and operands that meet them -/

/-- A probe's flag ready at the first sample, whatever the limit. -/
theorem readyAt_zero {f : Flag} {ready : Bool} {s : State} (h : s.flagAt f 0 = ready) :
    ReadyAt Config.probeLimit f ready s 0 :=
  ⟨Nat.succ_pos _, h, fun j hj => absurd hj (Nat.not_lt_zero j)⟩

/-- The adapter answers `b` to the next `PROBE_LIMIT` samples after the answers `l`. -/
def stuckAfter (l : List Bool) (b : Bool) : State := answering (l ++ List.replicate Config.probeLimit b)

theorem stuckAfter_flagAt (l : List Bool) (b : Bool) (f : Flag) (j : Nat) (hj : j < Config.probeLimit) :
    (stuckAfter l b).flagAt f (l.length + j) = b := by
  simp [State.flagAt, stuckAfter, answering, hj]

theorem witness_EncodeOfDecode : ∃ i, decodeCmd 0x081809D2#32 = .ok i := ⟨_, rfl⟩

theorem witness_ReservedWordsAreRefused :
    decodeCmd 0x00000013#32 = .error (.mustBeZero 3#4) ∧
      ({ State.reset with accesses := [Access.memWrite Config.base Config.base 4 0x00000013#32] } : State).accesses =
        Access.memWrite Config.base Config.base 4 0x00000013#32 :: [] := ⟨rfl, rfl⟩

theorem witness_OperandsAreWordFields :
    decodeCmd 0x07FFFFF1#32 = .ok (.bwr 0x7F#7 0xFF#8 0xFF#8) ∧
      decodeCmd 0x0FFFFFF2#32 = .ok (.brd 0x7F#7 0xFF#8 0xFF#8 true) := ⟨rfl, rfl⟩

theorem witness_StepRunsWrittenCommand :
    ({ State.reset with accesses := [Access.memWrite Config.base Config.base 4 0x000951D1#32] } : State).accesses =
        Access.memWrite Config.base Config.base 4 0x000951D1#32 :: [] ∧
      decodeCmd 0x000951D1#32 = .ok (.bwr 0x1D#7 0x2A#8 0x01#8) ∧ State.reset.accesses = [] := ⟨rfl, rfl, rfl⟩

theorem witness_FetchWordRunsInstruction :
    decodeTableWord 32 0x000951D1 = some (.bwr 0x1D#7 0x2A#8 0x01#8) ∧
      decodeTableWord 8 (0b1101#4).toNat = some .t7 := ⟨rfl, rfl⟩

theorem witness_PendingSvcRunsSelectedRow_interrupt :
    (writing .aw [true]).active = true ∧ (writing .aw [true]).flagAt .iicif 0 = true := by decide

theorem witness_PendingSvcRunsSelectedRow_terminal :
    (writing .wd [false]).active = true ∧ terminal (writing .wd [false]).dir (writing .wd [false]).state = true := by
  decide

theorem witness_NotPendingSvcIsNoOp :
    State.reset.active = false ∧ (writing .cw [false]).active = true ∧ (writing .cw [false]).flagAt .iicif 0 = false ∧
      terminal (writing .cw [false]).dir (writing .cw [false]).state = false := by decide

theorem witness_ReservedAccessesAreRefused_width :
    Config.base ≤ Config.base + 0x0C ∧ Config.base + 0x0C ≤ Config.base + 0x0F ∧ (1 ≠ 4 ∨ (Config.base + 0x0C) % 4 ≠ 0) ∧
      ({ State.reset with accesses := [Access.memRead Config.base (Config.base + 0x0C) 1] } : State).accesses =
        Access.memRead Config.base (Config.base + 0x0C) 1 :: [] := ⟨by omega, by omega, .inl (by decide), rfl⟩

theorem witness_ReservedAccessesAreRefused_alignment :
    Config.base ≤ Config.base + 0x0F ∧ Config.base + 0x0F ≤ Config.base + 0x0F ∧
      (4 ≠ 4 ∨ (Config.base + 0x0F) % 4 ≠ 0) ∧
      ({ State.reset with accesses := [Access.memWrite Config.base (Config.base + 0x0F) 4 3#32] } : State).accesses =
        Access.memWrite Config.base (Config.base + 0x0F) 4 3#32 :: [] :=
  ⟨by omega, by omega, .inr (by simp only [Config.base]; omega), rfl⟩

theorem witness_ReservedAccessesAreRefused_aligned :
    Config.base ≤ Config.base + 0x0C ∧ Config.base + 0x0C ≤ Config.base + 0x0F ∧ (Config.base + 0x0C) % 4 = 0 ∧
      ({ State.reset with accesses := [Access.memRead Config.base (Config.base + 0x0C) 4] } : State).accesses =
        Access.memRead Config.base (Config.base + 0x0C) 4 :: [] :=
  ⟨by omega, by omega, by simp only [Config.base]; omega, rfl⟩

theorem witness_OutsideWindowFaults :
    Config.base + 0x0F < Config.base + 0x10 ∧
      ({ State.reset with accesses := [Access.memRead Config.base (Config.base + 0x10) 4] } : State).accesses =
        Access.memRead Config.base (Config.base + 0x10) 4 :: [] := ⟨by omega, rfl⟩

theorem witness_WindowReads_zero :
    ({ State.reset with accesses := [Access.memRead Config.base (Config.base + 0x0C) 4] } : State).accesses =
      Access.memRead Config.base (Config.base + 0x0C) 4 :: [] := rfl

theorem witness_WindowReads_packet :
    ({ State.reset with accesses := [Access.memRead Config.base (Config.base + 0x08) 4] } : State).accesses =
      Access.memRead Config.base (Config.base + 0x08) 4 :: [] := rfl

theorem witness_WindowReads_status :
    ({ State.reset with accesses := [Access.memRead Config.base (Config.base + 0x04) 4] } : State).active = false ∧
      ({ writing .cw [true] with accesses := [Access.memRead Config.base (Config.base + 0x04) 4] } : State).active = true :=
  ⟨rfl, rfl⟩

theorem witness_WindowWritesAreIgnored :
    ({ State.reset with accesses := [Access.memWrite Config.base (Config.base + 0x0C) 4 3#32] } : State).accesses =
      Access.memWrite Config.base (Config.base + 0x0C) 4 3#32 :: [] := rfl

theorem witness_ProbeEndsAtFirstReady :
    ReadyAt 3 .tcf true (answering [false, false, true]) 2 ∧ NeverReady 3 .tcf true (answering [false, false, false]) := by
  unfold ReadyAt NeverReady
  decide

theorem witness_PtcResult :
    ReadyAt Config.probeLimit .tcf true (answering [true]) 0 ∧
      NeverReady Config.probeLimit .tcf true (stuckAfter [] false) :=
  ⟨readyAt_zero rfl, fun j hj => by simpa using stuckAfter_flagAt [] false .tcf j hj⟩

theorem witness_PbbResult :
    ReadyAt Config.probeLimit .busy false (answering [false]) 0 ∧
      NeverReady Config.probeLimit .busy false (stuckAfter [] true) :=
  ⟨readyAt_zero rfl, fun j hj => by simpa using stuckAfter_flagAt [] true .busy j hj⟩

theorem witness_PmmResult :
    ReadyAt Config.probeLimit .mst false (answering [false]) 0 ∧
      NeverReady Config.probeLimit .mst false (stuckAfter [] true) :=
  ⟨readyAt_zero rfl, fun j hj => by simpa using stuckAfter_flagAt [] true .mst j hj⟩

theorem witness_ProbesLeaveTransaction : isProbe .ptc = true ∧ isProbe .pbb = true ∧ isProbe .pmm = true := by decide

theorem witness_TransferNotCompleteRejection :
    isBegin (.bwr 0x1D#7 0x2A#8 0x01#8) = true ∧ isBegin (.brd 0x1D#7 0x01#8 0x00#8 true) = true ∧
      (writing .aw []).active = true ∧ (stuckAfter [] false).active = false ∧
      NeverReady Config.probeLimit .tcf true (stuckAfter [] false) :=
  ⟨rfl, rfl, rfl, rfl, witness_PtcResult.2⟩

theorem witness_BusBusyRejection :
    isBegin (.bwr 0x1D#7 0x2A#8 0x01#8) = true ∧ (stuckAfter [true] true).active = false ∧
      ReadyAt Config.probeLimit .tcf true (stuckAfter [true] true) 0 ∧
      NeverReady Config.probeLimit .busy false ((stuckAfter [true] true).afterTcf 0) := by
  refine ⟨rfl, rfl, readyAt_zero rfl, fun j hj => ?_⟩
  have h := stuckAfter_flagAt [true] true .busy j hj
  simpa [State.flagAt, State.afterTcf, State.afterSamples, stuckAfter, answering, State.reset, Nat.add_comm] using h

theorem witness_MasterModeRejection :
    isBegin (.brd 0x1D#7 0x01#8 0x00#8 true) = true ∧ BusReady (stuckAfter [true, false] true) 0 0 ∧
      NeverReady Config.probeLimit .mst false ((stuckAfter [true, false] true).afterBusy 0 0) := by
  refine ⟨rfl, ⟨rfl, readyAt_zero rfl, readyAt_zero rfl⟩, fun j hj => ?_⟩
  have h := stuckAfter_flagAt [true, false] true .mst j hj
  simpa [State.flagAt, State.afterBusy, State.afterTcf, State.afterSamples, stuckAfter, answering, State.reset,
    Nat.add_comm] using h

theorem witness_BwrAccepted : BeginReady (answering [true, false, false]) 0 0 0 :=
  ⟨⟨rfl, readyAt_zero rfl, readyAt_zero rfl⟩, readyAt_zero rfl⟩

theorem witness_BrdAccepted : BeginReady { answering [true, false, false] with data0 := 0x5A#8 } 0 0 0 :=
  ⟨⟨rfl, readyAt_zero rfl, readyAt_zero rfl⟩, readyAt_zero rfl⟩

theorem witness_RejectedBeginTouchesNothing :
    isBegin (.bwr 0x1D#7 0x2A#8 0x01#8) = true ∧
      ∃ t, exec (.bwr 0x1D#7 0x2A#8 0x01#8) (writing .aw []) = .next t ∧ t.result ≠ .ok := ⟨rfl, _, rfl, by decide⟩

theorem witness_BeginSampleOrder :
    ∃ t, exec (.bwr 0x1D#7 0x2A#8 0x01#8) (answering [true, false, false]) = .next t ∧ t.result = .ok :=
  ⟨_, rfl, by decide⟩

theorem witness_AckMissingRecovery : (reading .ar [false] []).flagAt .acked 0 = false := by decide

theorem witness_acknowledged_rows :
    (writing .aw [true]).flagAt .acked 0 = true ∧ (reading .cw [true] []).flagAt .acked 0 = true := by decide

theorem witness_T6Result :
    (reading .ar [true] [0xA5#8]).flagAt .acked 0 = true ∧ (reading .ar [true] [0xA5#8]).byteAnswers = 0xA5#8 :: [] := by
  decide

theorem witness_UnexpectedStateRecovery :
    decodeStep .write .dr = .uxWrite 2#2 ∧ decodeStep .read .wd = .uxRead 1#1 ∧ decodeStep .read .noState = .uxReadSeven :=
  by decide

/-- A state in flight that meets the invariants, with an SVC waiting and every answer given. -/
def serving : State := (reading .rs [true, false] [0x5A#8]).withCommand 3#32

theorem witness_StepKeepsInvariants : Inv serving ∧ ∃ t, step serving = .next t :=
  ⟨⟨by decide, by decide, by decide, by decide⟩, _, rfl⟩

theorem witness_ReachableStatesMeetInvariants : Reachable State.reset := .reset

theorem witness_OnlyBeginsWriteTheTarget :
    ∃ t, step ((answering [true, false, false]).withCommand 0x000951D1#32) = .next t ∧ t.sa ≠ State.reset.sa :=
  ⟨_, rfl, by decide⟩

theorem witness_OnlyBeginsWriteTheTarget_data : ∃ t, step serving = .next t ∧ t.data0 ≠ serving.data0 :=
  ⟨_, rfl, by decide⟩

theorem witness_ReportFieldWriters : ∃ t, step (State.withCommand (answering [true]) 4#32) = .next t ∧ t.prb = true :=
  ⟨_, rfl, by decide⟩

theorem witness_CompletionIsSingleShot : ∃ t, step serving = .next t ∧ t.events = [⟨0x02#8, 0x5A#8⟩] :=
  ⟨_, rfl, by decide⟩

theorem witness_CompletionIsSingleShot_armed :
    ∃ t, step ((answering [true, false, false]).withCommand 0x080009D2#32) = .next t ∧ t.armed = true :=
  ⟨_, rfl, by decide⟩

theorem witness_WaysOutOfFlight :
    ∃ t, step ((writing .wd [false, false]).withCommand 3#32) = .next t ∧ (writing .wd [false, false]).active = true ∧
      t.active = false := ⟨_, rfl, rfl, by decide⟩

/-- A write's answers under the cooperative adapter A0 of 95_test_vectors.md, without STATUS reads. -/
def cooperativeWrite : State :=
  answering [true, false, false, true, false, true, true, false, true, true, false, true, false, false]

theorem witness_WriteTransactionRunsToIdle :
    ∃ t₀ t₁ t₂ t₃ t₄, exec (.bwr 0x1D#7 0x2A#8 0x01#8) cooperativeWrite = .next t₀ ∧ t₀.result = .ok ∧
      exec .svc t₀ = .next t₁ ∧ exec .svc t₁ = .next t₂ ∧ exec .svc t₂ = .next t₃ ∧ exec .svc t₃ = .next t₄ ∧
      ∀ t ∈ [t₀, t₁, t₂], t.flagAt .iicif 0 = true ∧ t.flagAt .acked 2 = true :=
  ⟨_, _, _, _, _, rfl, by decide, rfl, rfl, rfl, rfl, by decide⟩

/-- A read's answers under A0. -/
def cooperativeRead : State :=
  { answering [true, false, false, true, false, true, true, false, true, true, false, true, true, false, false, false] with
    byteAnswers := [0xA5#8, 0x5A#8] }

theorem witness_ReadTransactionDeliversByte :
    ∃ t₀ t₁ t₂ t₃ t₄ t₅, exec (.brd 0x1D#7 0x01#8 0x03#8 true) cooperativeRead = .next t₀ ∧ t₀.result = .ok ∧
      exec .svc t₀ = .next t₁ ∧ exec .svc t₁ = .next t₂ ∧ exec .svc t₂ = .next t₃ ∧ exec .svc t₃ = .next t₄ ∧
      exec .svc t₄ = .next t₅ ∧ (∀ t ∈ [t₀, t₁, t₂], t.flagAt .iicif 0 = true ∧ t.flagAt .acked 2 = true) ∧
      t₃.flagAt .iicif 0 = true :=
  ⟨_, _, _, _, _, _, rfl, by decide, rfl, rfl, rfl, rfl, rfl, by decide, by decide⟩

theorem witness_StalledTransactionStaysInFlight :
    Instr.svc.isCommand = true ∧ (writing .cw [false, false]).active = true ∧
      terminal (writing .cw [false, false]).dir (writing .cw [false, false]).state = false ∧
      ∀ j < 2, (writing .cw [false, false]).flagAt .iicif j = false := by decide

theorem witness_UnexpectedStateNeverReported : Reachable (answering [true]) :=
  .input .reset ⟨[], [true], [], rfl⟩

theorem witness_UnexpectedStateNeverReported_step :
    Inv serving ∧ serving.result ≠ .unexpectedProtocolState ∧ serving.result ≠ .neverWritten ∧
      ∃ t, step serving = .next t :=
  ⟨witness_StepKeepsInvariants.1, by decide, by decide, witness_StepKeepsInvariants.2⟩

theorem witness_ClientAdvancesOnAcceptanceOnly :
    (match Client.service ⟨0x0E#8, 0x01#8⟩ Client.reset (answering [true, false, false, true]) with
      | .next (c, _) => some c.step
      | _ => none) = some 1 := by decide

theorem witness_ClientStepStaysInRange :
    ∃ c' t, Client.loopTurn ⟨0x0E#8, 0x01#8⟩ { Client.reset with step := 1 } (answering [true, false, false, true]) =
      .next (c', t) ∧ c'.phase = .running := ⟨_, _, rfl, by decide⟩

end Sys2Proof.Tests
end

/-! ### The streams only grow (R11, R33, R67) -/

namespace Sys2Proof.Machine

/-- The two output streams and the model's two records in `s` are prefixes of those in `t`. -/
structure Grows (s t : State) : Prop where
  busHistory : s.busHistory <+: t.busHistory
  events : s.events <+: t.events
  draws : s.draws <+: t.draws
  readData : s.readData <+: t.readData

namespace Grows

variable {s t u : State}

theorem refl (s : State) : Grows s s :=
  ⟨List.prefix_rfl, List.prefix_rfl, List.prefix_rfl, List.prefix_rfl⟩

theorem trans (hst : Grows s t) (htu : Grows t u) : Grows s u :=
  ⟨hst.busHistory.trans htu.busHistory, hst.events.trans htu.events, hst.draws.trans htu.draws,
    hst.readData.trans htu.readData⟩

/-- Growth speaks of the four lists only: any update of the other fields keeps it. -/
theorem congr_streams (h : Grows s t) (hb : u.busHistory = t.busHistory := by rfl) (he : u.events = t.events := by rfl)
    (hd : u.draws = t.draws := by rfl) (hr : u.readData = t.readData := by rfl) : Grows s u :=
  ⟨hb ▸ h.busHistory, he ▸ h.events, hd ▸ h.draws, hr ▸ h.readData⟩

/-! The primitives of R11 that append to a list. -/

theorem afterSamples (h : Grows s t) (f : Flag) (n : Nat) : Grows s (t.afterSamples f n) :=
  { h with draws := h.draws.trans (List.prefix_append _ _) }

theorem drawFlag (h : Grows s t) (f : Flag) : Grows s (t.drawFlag f) :=
  { h with draws := h.draws.trans (List.prefix_append _ _) }

theorem busAct (h : Grows s t) (a : BusAction) : Grows s (busAct a t) :=
  { h with busHistory := h.busHistory.trans (List.prefix_append _ _) }

theorem busRead (h : Grows s t) : Grows s (busRead t).2 :=
  { h with
    busHistory := h.busHistory.trans (List.prefix_append _ _)
    draws := h.draws.trans (List.prefix_append _ _) }

theorem emitCompletion (h : Grows s t) (c b : Byte) : Grows s (emitCompletion c b t) :=
  { h with events := h.events.trans (List.prefix_append _ _) }

theorem giveHost (h : Grows s t) (w : Word) : Grows s (giveHost (w, t)) :=
  { h with readData := h.readData.trans (List.prefix_append _ _) }

/-! The operations several commands share. -/

theorem report (h : Grows s t) (code : ResultCode) : Grows s (report code t) := h.congr_streams

theorem reject (h : Grows s t) (code : ResultCode) (timedOut : Bool) : Grows s (reject code timedOut t) :=
  h.congr_streams

theorem recover (h : Grows s t) (code : ResultCode) : Grows s (recover code t) :=
  (h.busAct .stop).congr_streams

theorem startBus (h : Grows s t) (sa : SlaveAddr) : Grows s (startBus { t with sa := sa }) :=
  ((((h.busAct .clrif).busAct .tx).busAct .start).busAct (.write (addrByte sa .write))).congr_streams

theorem prelude (h : Grows s t) (iif : Bool) : Grows s (prelude iif t) := by
  rw [prelude_eq, List.append_assoc]
  exact { h.drawFlag .arbl with busHistory := h.busHistory.trans (List.prefix_append _ _) }

theorem withAck {row : State → State} (hrow : ∀ u, Grows u (row u)) (s : State) : Grows s (withAck row s) := by
  have hs : Grows s (s.drawFlag .acked) := (refl s).drawFlag .acked
  obtain ⟨-, hw⟩ | ⟨-, hw⟩ := withAck_cases row s <;> rw [hw]
  · exact hs.trans (hrow _)
  · exact hs.recover _

theorem beginWith {accept : State → State} (haccept : ∀ u, Grows u (accept u)) (limit : Nat) (s : State) :
    Grows s (beginWith limit accept s) := by
  obtain ⟨-, hb⟩ | ⟨-, -, hb⟩ | ⟨-, k₁, -, -, hb⟩ | ⟨-, k₁, k₂, -, -, -, hb⟩ | ⟨-, k₁, k₂, k₃, -, -, -, hb⟩ :=
    beginWith_cases limit accept s <;> rw [hb]
  · exact (refl s).reject _ _
  · exact ((refl s).afterSamples .tcf _).reject _ _
  · exact (((refl s).afterSamples .tcf _).afterSamples .busy _).reject _ _
  · exact ((((refl s).afterSamples .tcf _).afterSamples .busy _).afterSamples .mst _).reject _ _
  · exact ((((refl s).afterSamples .tcf _).afterSamples .busy _).afterSamples .mst _).trans (haccept _)

theorem acceptWrite (sa : SlaveAddr) (rg data : Byte) (s : State) : Grows s (acceptWrite sa rg data s) :=
  ((refl s).startBus sa).congr_streams

theorem acceptRead (sa : SlaveAddr) (rg ctx : Byte) (arm : Bool) (s : State) :
    Grows s (acceptRead sa rg ctx arm s) :=
  ((refl s).startBus sa).congr_streams

theorem probeCommand (limit : Nat) (f : Flag) (ready onReady : Bool) (s : State) :
    Grows s (probeCommand limit f ready onReady s) := by
  obtain ⟨k, -, hp⟩ | ⟨-, hp⟩ := probeCommand_cases limit f ready onReady s <;> rw [hp]
  · exact ((refl s).afterSamples f (k + 1)).congr_streams
  · exact ((refl s).afterSamples f limit).congr_streams

/-! The rows of the service step. -/

theorem rowT1 (s : State) : Grows s (rowT1 s) :=
  withAck (fun u => ((refl u).busAct _).congr_streams) s

theorem rowT2 (s : State) : Grows s (rowT2 s) :=
  withAck (fun u => ((refl u).busAct _).congr_streams) s

theorem rowT3 (s : State) : Grows s (rowT3 s) :=
  withAck (fun u => (refl u).congr_streams) s

theorem rowT4 (s : State) : Grows s (rowT4 s) :=
  ((refl s).busAct .stop).congr_streams

theorem rowT5 (s : State) : Grows s (rowT5 s) :=
  withAck (fun u => (((refl u).busAct .rstart).busAct _).congr_streams) s

theorem rowT6 (s : State) : Grows s (rowT6 s) :=
  withAck (fun u => ((refl u).busAct .rx).busRead.congr_streams) s

theorem deliver (h : Grows s t) (b : Byte) : Grows s (deliver b t) := by
  unfold Machine.deliver
  split
  · exact h.emitCompletion t.ctx b
  · exact h

theorem rowT7 (s : State) : Grows s (rowT7 s) :=
  report (deliver (((refl s).busRead.busAct .stop).busAct .tx).congr_streams _) .ok

theorem rowT8 (s : State) : Grows s (rowT8 s) := (refl s).congr_streams

theorem rowUx (s : State) : Grows s (rowUx s) := (refl s).recover _

theorem runRow (r : StepRow) (s : State) : Grows s (runRow r s) := by
  cases r with
  | t1 => exact rowT1 s
  | t2 => exact rowT2 s
  | t3 => exact rowT3 s
  | t4 => exact rowT4 s
  | t5 => exact rowT5 s
  | t6 => exact rowT6 s
  | t7 => exact rowT7 s
  | t8 => exact rowT8 s
  | uxWrite => exact rowUx s
  | uxRead => exact rowUx s
  | uxReadSeven => exact rowUx s

theorem service (s : State) : Grows s (service s) := by
  obtain ⟨-, hs⟩ | ⟨-, -, hs⟩ | ⟨-, -, hs⟩ := service_cases s <;> rw [hs]
  · exact refl s
  · exact (refl s).drawFlag .iicif
  · exact (((refl s).drawFlag .iicif).prelude _).trans (runRow _ _)

/-! Instructions and host accesses. -/

/-- From a meaning that completes in `u` to the `t` it is known to complete in. -/
theorem of_next (hu : Grows s u) (h : (.next u : Host.Outcome State Fault Refusal) = .next t) : Grows s t :=
  Host.Outcome.next.inj h ▸ hu

theorem exec {i : Instr} (h : exec i s = .next t) : Grows s t := by
  cases i with
  | bwr sa rg data => exact (beginWith (acceptWrite sa rg data) _ s).of_next h
  | brd sa rg ctx arm => exact (beginWith (acceptRead sa rg ctx arm) _ s).of_next h
  | svc => exact (service s).of_next h
  | ptc => exact (probeCommand _ .tcf true true s).of_next h
  | pbb => exact (probeCommand _ .busy false false s).of_next h
  | pmm => exact (probeCommand _ .mst false false s).of_next h
  | t1 => exact (rowT1 s).of_next h
  | t2 => exact (rowT2 s).of_next h
  | t3 => exact (rowT3 s).of_next h
  | t4 => exact (rowT4 s).of_next h
  | t5 => exact (rowT5 s).of_next h
  | t6 => exact (rowT6 s).of_next h
  | t7 => exact (rowT7 s).of_next h
  | t8 => exact (rowT8 s).of_next h
  | uxWrite => exact (rowUx s).of_next h
  | uxRead => exact (rowUx s).of_next h
  | uxReadSeven => exact (rowUx s).of_next h

theorem readWindow (off : Int) (s : State) : Grows s (readWindow off s).2 := by
  obtain hr | ⟨-, -, hr⟩ := readWindow_cases off s <;> rw [hr]
  · exact refl s
  · exact (refl s).drawFlag .iicif

theorem step (h : step s = .next t) : Grows s t := by
  have htaken : ∀ rest : List Access, Grows s { s with accesses := rest } := fun _ => (refl s).congr_streams
  obtain ⟨-, rfl⟩ | ⟨a, rest, -, -, rfl⟩ | ⟨a, rest, w, -, -, -, rfl⟩ | ⟨a, rest, w, i, -, -, -, -, -, he⟩ :=
    step_cases h
  case inl => exact refl t
  case inr.inl => exact ((htaken rest).trans (readWindow a.off _)).giveHost _
  case inr.inr.inl => exact htaken rest
  case inr.inr.inr => exact (htaken rest).trans (exec he)

end Grows

/-- Settles O49: every operation a step is made of keeps the four lists or appends to them. -/
theorem streamsOnlyGrow : Obligations.StreamsOnlyGrow := by
  intro s t h
  obtain ⟨hbus, hevents, hdraws, hreads⟩ := Grows.step h
  exact ⟨hbus, hevents, hdraws, hreads⟩

end Sys2Proof.Machine

/-! ### What a step does to the engine and the completion stream

One relation for "only ports and records differ", and one inversion lemma each for a row, a begin, a probe, an SVC, a
command and a step. The statements about who writes a field (R21 to R35) are read off these. -/

namespace Sys2Proof

/-- The state that a row with an acknowledge check enters when it is acknowledged (R126 to R131). -/
def StepRow.enters : StepRow → Option ProtoState
  | .t1 _ => some .cw
  | .t2 => some .dw
  | .t3 => some .wd
  | .t5 => some .ar
  | .t6 => some .rs
  | _ => none

/-- The code of a row that always ends the transaction (R129, R133, R134). -/
def StepRow.endsWith : StepRow → Option ResultCode
  | .t4 => some .ok
  | .t8 => some .ok
  | .uxWrite _ => some .unexpectedProtocolState
  | .uxRead _ => some .unexpectedProtocolState
  | .uxReadSeven => some .unexpectedProtocolState
  | _ => none

end Sys2Proof

namespace Sys2Proof.Machine

/-- `t` is `s` but for the bus-action history, the ports and the model's own records: the eleven fields of R20 and the
completion stream are the same. -/
def SameButPorts (s t : State) : Prop :=
  ∃ bus acc rd fl byt drw, t = { s with busHistory := bus, accesses := acc, readData := rd, flagAnswers := fl,
                                        byteAnswers := byt, draws := drw }

namespace SameButPorts

variable {s t u : State}

theorem refl (s : State) : SameButPorts s s := ⟨_, _, _, _, _, _, rfl⟩

theorem trans (hst : SameButPorts s t) (htu : SameButPorts t u) : SameButPorts s u := by
  obtain ⟨_, _, _, _, _, _, rfl⟩ := hst
  obtain ⟨_, _, _, _, _, _, rfl⟩ := htu
  exact ⟨_, _, _, _, _, _, rfl⟩

theorem drawFlag (s : State) (f : Flag) : SameButPorts s (s.drawFlag f) := ⟨_, _, _, _, _, _, rfl⟩

theorem afterSamples (h : SameButPorts s t) (f : Flag) (n : Nat) : SameButPorts s (t.afterSamples f n) :=
  h.trans ⟨_, _, _, _, _, _, rfl⟩

theorem prelude (iif : Bool) (s : State) : SameButPorts s (prelude iif s) := by
  rw [prelude_eq]
  exact ⟨_, _, _, _, _, _, rfl⟩

theorem of_inputs (h : SameButInputs s t) : SameButPorts s t := by
  obtain ⟨_, _, _, rfl⟩ := h
  exact ⟨_, _, _, _, _, _, rfl⟩

/-- An operation that reads no port writes the same engine fields into states that differ in the ports only. -/
theorem map (f : State → State) (h : SameButPorts s t)
    (hf : ∀ (u : State) bus acc rd fl byt drw, SameButPorts (f u) (f { u with
        busHistory := bus, accesses := acc, readData := rd, flagAnswers := fl, byteAnswers := byt, draws := drw }) := by
      intros; exact ⟨_, _, _, _, _, _, rfl⟩) :
    SameButPorts (f s) (f t) := by
  obtain ⟨bus, acc, rd, fl, byt, drw, rfl⟩ := h
  exact hf s bus acc rd fl byt drw

/-! The engine's fields and the completion stream are the same. -/

theorem state (h : SameButPorts s t) : t.state = s.state := by obtain ⟨_, _, _, _, _, _, rfl⟩ := h; rfl

theorem dir (h : SameButPorts s t) : t.dir = s.dir := by obtain ⟨_, _, _, _, _, _, rfl⟩ := h; rfl

theorem sa (h : SameButPorts s t) : t.sa = s.sa := by obtain ⟨_, _, _, _, _, _, rfl⟩ := h; rfl

theorem reg (h : SameButPorts s t) : t.reg = s.reg := by obtain ⟨_, _, _, _, _, _, rfl⟩ := h; rfl

theorem data0 (h : SameButPorts s t) : t.data0 = s.data0 := by obtain ⟨_, _, _, _, _, _, rfl⟩ := h; rfl

theorem armed (h : SameButPorts s t) : t.armed = s.armed := by obtain ⟨_, _, _, _, _, _, rfl⟩ := h; rfl

theorem ctx (h : SameButPorts s t) : t.ctx = s.ctx := by obtain ⟨_, _, _, _, _, _, rfl⟩ := h; rfl

theorem active (h : SameButPorts s t) : t.active = s.active := by obtain ⟨_, _, _, _, _, _, rfl⟩ := h; rfl

theorem result (h : SameButPorts s t) : t.result = s.result := by obtain ⟨_, _, _, _, _, _, rfl⟩ := h; rfl

theorem tmo (h : SameButPorts s t) : t.tmo = s.tmo := by obtain ⟨_, _, _, _, _, _, rfl⟩ := h; rfl

theorem prb (h : SameButPorts s t) : t.prb = s.prb := by obtain ⟨_, _, _, _, _, _, rfl⟩ := h; rfl

theorem events (h : SameButPorts s t) : t.events = s.events := by obtain ⟨_, _, _, _, _, _, rfl⟩ := h; rfl

end SameButPorts

/-- What a stand-alone probe writes (R161 to R163). -/
def reportProbe (bit : Bool) (code : ResultCode) (timedOut : Bool) (s : State) : State :=
  { s with prb := bit, result := code, tmo := timedOut }

/-- What T7 writes when its READ returned `b` (R132): the byte, the state DataRead, and the completion if armed. -/
def capture (b : Byte) (s : State) : State :=
  { s with data0 := b, state := .dr, armed := false, result := .ok,
           events := s.events ++ (if s.armed then [⟨s.ctx, b⟩] else []) }

/-! The rows of the service step. -/

/-- The ends of a row `r` run on `s`. -/
inductive RowEnd (r : StepRow) (s t : State) : Prop where
  | advanced {p : ProtoState} (hr : r.enters = some p) (h : SameButPorts (enter p s) t)
  | nacked {p : ProtoState} (hr : r.enters = some p) (h : SameButPorts (recover .acknowledgeMissing s) t)
  | captured {b : Byte} (hr : r = .t7) (h : SameButPorts (capture b s) t)
  | ended {c : ResultCode} (hr : r.endsWith = some c) (h : SameButPorts (recover c s) t)

/-- A row whose acknowledged part does nothing but enter `p`, the ports apart, advances or is not acknowledged. -/
theorem withAck_end {r : StepRow} {p : ProtoState} {row : State → State} (hr : r.enters = some p)
    (hrow : ∀ u, SameButPorts (enter p u) (row u)) (s : State) : RowEnd r s (withAck row s) := by
  have hs := SameButPorts.drawFlag s .acked
  obtain ⟨-, hw⟩ | ⟨-, hw⟩ := withAck_cases row s <;> rw [hw]
  · exact .advanced hr ((hs.map (enter p)).trans (hrow _))
  · exact .nacked hr (hs.map (recover _))

/-- Delivering a byte disarms the completion whether it was armed or not (R132). -/
theorem deliver_eq (b : Byte) (s : State) :
    deliver b s = { s with events := s.events ++ (if s.armed then [⟨s.ctx, b⟩] else []), armed := false } := by
  rcases s with ⟨_, _, _, _, _, _ | _⟩ <;> simp [deliver, emitCompletion]

theorem rowT7_end (s : State) : SameButPorts (capture s.byteNext s) (rowT7 s) := by
  rw [rowT7, deliver_eq]
  exact ⟨_, _, _, _, _, _, rfl⟩

theorem runRow_end (r : StepRow) (s : State) : RowEnd r s (runRow r s) := by
  cases r with
  | t1 | t2 | t3 | t5 | t6 => exact withAck_end rfl (fun u => ⟨_, _, _, _, _, _, rfl⟩) s
  | t7 => exact .captured rfl (rowT7_end s)
  | t4 | t8 => exact .ended (c := .ok) rfl ⟨_, _, _, _, _, _, rfl⟩
  | uxWrite | uxRead | uxReadSeven => exact .ended rfl (.refl (rowUx s))

theorem RowEnd.of_ports {r : StepRow} {s t u : State} (hsu : SameButPorts s u) (h : RowEnd r u t) : RowEnd r s t := by
  cases h with
  | advanced hr h => exact .advanced hr ((hsu.map (enter _)).trans h)
  | nacked hr h => exact .nacked hr ((hsu.map (recover _)).trans h)
  | captured hr h => exact .captured hr ((hsu.map (capture _)).trans h)
  | ended hr h => exact .ended hr ((hsu.map (recover _)).trans h)

/-! The commands. -/

/-- The codes of `check_start`'s failing checks (R101 to R103). -/
def isRejectCode : ResultCode → Bool
  | .transferNotComplete => true
  | .busBusy => true
  | .masterModeStillSet => true
  | _ => false

/-- A begin whose acceptance writes the same into states that differ in the ports only is rejected, or accepted with
nothing in flight (R100, R104). -/
theorem beginWith_end {accept : State → State}
    (haccept : ∀ {u v}, SameButPorts u v → SameButPorts (accept u) (accept v)) (limit : Nat) (s : State) :
    (∃ c timedOut, isRejectCode c = true ∧ SameButPorts (reject c timedOut s) (beginWith limit accept s)) ∨
      (s.active = false ∧ SameButPorts (accept s) (beginWith limit accept s)) := by
  have hs := SameButPorts.refl s
  obtain ⟨-, hb⟩ | ⟨-, -, hb⟩ | ⟨-, k₁, -, -, hb⟩ | ⟨-, k₁, k₂, -, -, -, hb⟩ | ⟨ha, k₁, k₂, k₃, -, -, -, hb⟩ :=
    beginWith_cases limit accept s <;> rw [hb]
  · exact .inl ⟨_, _, rfl, .refl _⟩
  · exact .inl ⟨_, _, rfl, (hs.afterSamples .tcf _).map (reject _ _)⟩
  · exact .inl ⟨_, _, rfl, ((hs.afterSamples .tcf _).afterSamples .busy _).map (reject _ _)⟩
  · exact .inl ⟨_, _, rfl, (((hs.afterSamples .tcf _).afterSamples .busy _).afterSamples .mst _).map (reject _ _)⟩
  · exact .inr ⟨ha, haccept (((hs.afterSamples .tcf _).afterSamples .busy _).afterSamples .mst _)⟩

/-- The ends of a command `i` run on `s`. -/
inductive CommandEnd (i : Instr) (s t : State) : Prop where
  | rejected {c : ResultCode} {timedOut : Bool} (hi : isBegin i = true) (hc : isRejectCode c = true)
      (h : SameButPorts (reject c timedOut s) t)
  | acceptedWrite {sa : SlaveAddr} {rg data : Byte} (hi : i = .bwr sa rg data) (ha : s.active = false)
      (h : SameButPorts (acceptWrite sa rg data s) t)
  | acceptedRead {sa : SlaveAddr} {rg ctx : Byte} {arm : Bool} (hi : i = .brd sa rg ctx arm) (ha : s.active = false)
      (h : SameButPorts (acceptRead sa rg ctx arm s) t)
  | probeReady {bit : Bool} (hi : isProbe i = true) (h : SameButPorts (reportProbe bit .ok false s) t)
  | probeTimedOut {bit : Bool} (hi : isProbe i = true) (h : SameButPorts (reportProbe bit .hardwareTimeout true s) t)
  | notPending (hi : i = .svc) (h : SameButPorts s t)
  | served (hi : i = .svc) (ha : s.active = true) (h : RowEnd (decodeStep s.dir s.state) s t)

theorem probeCommand_end {i : Instr} (hi : isProbe i = true) (limit : Nat) (f : Flag) (ready onReady : Bool)
    (s : State) : CommandEnd i s (probeCommand limit f ready onReady s) := by
  have hs := SameButPorts.refl s
  obtain ⟨k, -, hp⟩ | ⟨-, hp⟩ := probeCommand_cases limit f ready onReady s <;> rw [hp]
  · exact .probeReady hi ((hs.afterSamples f (k + 1)).map (reportProbe _ _ _))
  · exact .probeTimedOut hi ((hs.afterSamples f limit).map (reportProbe _ _ _))

theorem service_end (s : State) : CommandEnd .svc s (service s) := by
  obtain ⟨-, hs⟩ | ⟨-, -, hs⟩ | ⟨ha, -, hs⟩ := service_cases s <;> rw [hs]
  · exact .notPending rfl (.refl s)
  · exact .notPending rfl (.drawFlag s .iicif)
  · have hpre := (SameButPorts.drawFlag s .iicif).trans (.prelude (s.flagAt .iicif 0) _)
    exact .served rfl ha ((runRow_end _ _).of_ports hpre)

theorem exec_end {i : Instr} {s t : State} (hi : i.isCommand = true) (h : exec i s = .next t) : CommandEnd i s t := by
  cases i with
  | bwr sa rg data =>
    cases h
    obtain ⟨c, timedOut, hc, hb⟩ | ⟨ha, hb⟩ :=
      beginWith_end (fun hu => hu.map (acceptWrite sa rg data)) Config.probeLimit s
    · exact .rejected rfl hc hb
    · exact .acceptedWrite rfl ha hb
  | brd sa rg ctx arm =>
    cases h
    obtain ⟨c, timedOut, hc, hb⟩ | ⟨ha, hb⟩ :=
      beginWith_end (fun hu => hu.map (acceptRead sa rg ctx arm)) Config.probeLimit s
    · exact .rejected rfl hc hb
    · exact .acceptedRead rfl ha hb
  | svc => cases h; exact service_end s
  | ptc | pbb | pmm => cases h; exact probeCommand_end rfl _ _ _ _ s
  | t1 | t2 | t3 | t4 | t5 | t6 | t7 | t8 | uxWrite | uxRead | uxReadSeven => cases hi

theorem CommandEnd.of_ports {i : Instr} {s t u : State} (hsu : SameButPorts s u) (h : CommandEnd i u t) :
    CommandEnd i s t := by
  cases h with
  | rejected hi hc h => exact .rejected hi hc ((hsu.map (reject _ _)).trans h)
  | acceptedWrite hi ha h => exact .acceptedWrite hi (hsu.active ▸ ha) ((hsu.map (acceptWrite _ _ _)).trans h)
  | acceptedRead hi ha h => exact .acceptedRead hi (hsu.active ▸ ha) ((hsu.map (acceptRead _ _ _ _)).trans h)
  | probeReady hi h => exact .probeReady hi ((hsu.map (reportProbe _ _ _)).trans h)
  | probeTimedOut hi h => exact .probeTimedOut hi ((hsu.map (reportProbe _ _ _)).trans h)
  | notPending hi h => exact .notPending hi (hsu.trans h)
  | served hi ha h => exact .served hi (hsu.active ▸ ha) (hsu.dir ▸ hsu.state ▸ h.of_ports hsu)

/-! One step. -/

/-- A word written to CMD decodes to a command, never to a row of the service step (R89). -/
theorem isCommand_of_decodeCmd {w : Word} {i : Instr} (h : decodeCmd w = .ok i) : i.isCommand = true := by
  have hbare : ∀ {j : Instr}, decodeBare w j = .ok i → i = j := by
    intro j hj
    unfold decodeBare at hj
    split at hj
    · exact (Except.ok.inj hj).symm
    · cases hj
  unfold decodeCmd at h
  split at h
  case h_1 | h_2 =>
    split at h
    · cases h; rfl
    · cases h
  case h_3 | h_4 | h_5 | h_6 => rw [hbare h]; rfl
  case h_7 => cases h

/-- Everything one step can do to the engine and the completion stream: nothing, or a command ran. -/
theorem step_end {s t : State} (h : step s = .next t) :
    SameButPorts s t ∨ ∃ i, nextCommand s = some i ∧ CommandEnd i s t := by
  have htaken : ∀ rest : List Access, SameButPorts s { s with accesses := rest } := fun _ => ⟨_, _, _, _, _, _, rfl⟩
  obtain ⟨-, rfl⟩ | ⟨a, rest, -, -, rfl⟩ | ⟨a, rest, w, -, -, -, rfl⟩ | ⟨a, rest, w, i, hs, hop, hoff, hw, hd, he⟩ :=
    step_cases h
  · exact .inl (.refl t)
  · have hread : SameButPorts s (readWindow a.off { s with accesses := rest }).2 := by
      obtain hr | ⟨-, -, hr⟩ := readWindow_cases a.off { s with accesses := rest }
      all_goals rw [hr]
      · exact htaken rest
      · exact (htaken rest).trans (.drawFlag _ _)
    exact .inl (hread.trans ⟨_, _, _, _, _, _, rfl⟩)
  · exact .inl (htaken rest)
  · have hnext : nextCommand s = some i := by simp [nextCommand, hs, hop, hoff, hw, hd, acceptedInstr]
    exact .inr ⟨i, hnext, (exec_end (isCommand_of_decodeCmd hd) he).of_ports (htaken rest)⟩

/-! The rows an SVC selects, by DIR and STATE (R89, R123). -/

theorem recognised_of_enters {d : Dir} {p q : ProtoState} (h : (decodeStep d p).enters = some q) :
    recognised d q = true := by
  cases d <;> cases p <;> cases h <;> rfl

/-- The acknowledge points: the pairs whose row checks ACKED (R124). -/
theorem ackPoint_of_enters {d : Dir} {p q : ProtoState} (h : (decodeStep d p).enters = some q) :
    p = .aw ∨ p = .cw ∨ (d = .write ∧ p = .dw) ∨ (d = .read ∧ p = .ar) := by
  cases d <;> cases p <;> cases h <;> simp

theorem readSwitch_of_t7 {d : Dir} {p : ProtoState} (h : decodeStep d p = .t7) : d = .read ∧ p = .rs := by
  cases d <;> cases p <;> cases h
  exact ⟨rfl, rfl⟩

/-- A row that always ends the transaction is T4, T8 or the recovery of an unrecognised pair. -/
theorem pair_of_endsWith {d : Dir} {p : ProtoState} {c : ResultCode} (h : (decodeStep d p).endsWith = some c) :
    (c = .ok ∧ ((d = .write ∧ p = .wd) ∨ (d = .read ∧ p = .dr))) ∨
      (c = .unexpectedProtocolState ∧ recognised d p = false) := by
  cases d <;> cases p <;> cases h <;> simp [recognised]

end Sys2Proof.Machine

/-! ### The invariants of R35 and the codes that are never reported (R200, R207) -/

namespace Sys2Proof.Machine

namespace Inv

variable {s t : State}

theorem of_ports (hs : Inv s) (h : SameButPorts s t) : Inv t := by
  obtain ⟨_, _, _, _, _, _, rfl⟩ := h
  exact ⟨hs.idleState, hs.idleUnarmed, hs.activeRecognised, hs.writeUnarmed⟩

theorem reject (hs : Inv s) (c : ResultCode) (timedOut : Bool) : Inv (reject c timedOut s) :=
  ⟨hs.idleState, hs.idleUnarmed, hs.activeRecognised, hs.writeUnarmed⟩

theorem reportProbe (hs : Inv s) (bit : Bool) (c : ResultCode) (timedOut : Bool) :
    Inv (reportProbe bit c timedOut s) :=
  ⟨hs.idleState, hs.idleUnarmed, hs.activeRecognised, hs.writeUnarmed⟩

/-- An accepted BWR is in flight in AddressWrite with no completion armed. -/
theorem acceptWrite (sa : SlaveAddr) (rg data : Byte) (s : State) : Inv (acceptWrite sa rg data s) :=
  ⟨fun _ => rfl, fun _ => rfl, fun _ => rfl, fun _ => rfl⟩

/-- An accepted BRD is in flight in AddressWrite; it may be armed, as its DIR is Read. -/
theorem acceptRead (sa : SlaveAddr) (rg ctx : Byte) (arm : Bool) (s : State) : Inv (acceptRead sa rg ctx arm s) :=
  ⟨fun _ => rfl, nofun, fun _ => rfl, nofun⟩

theorem recover (c : ResultCode) (s : State) : Inv (recover c s) :=
  ⟨fun _ => rfl, fun _ => rfl, nofun, fun _ => rfl⟩

theorem enter (hs : Inv s) (ha : s.active = true) {p : ProtoState} (hp : recognised s.dir p = true) :
    Inv (enter p s) := by
  refine ⟨fun hi => ?_, hs.idleUnarmed, fun _ => hp, hs.writeUnarmed⟩
  rw [enter_active, ha] at hi
  cases hi

theorem capture (ha : s.active = true) (hd : s.dir = .read) (b : Byte) : Inv (capture b s) := by
  refine ⟨fun hi => ?_, fun _ => rfl, fun _ => ?_, fun _ => rfl⟩
  · exact absurd (ha.symm.trans hi) (by decide)
  · change recognised s.dir .dr = true
    rw [hd]; rfl

theorem row (hs : Inv s) (ha : s.active = true) (h : RowEnd (decodeStep s.dir s.state) s t) : Inv t := by
  cases h with
  | advanced hr h => exact (hs.enter ha (recognised_of_enters hr)).of_ports h
  | nacked hr h => exact (recover _ s).of_ports h
  | captured hr h => exact (capture ha (readSwitch_of_t7 hr).1 _).of_ports h
  | ended hr h => exact (recover _ s).of_ports h

theorem command {i : Instr} (hs : Inv s) (h : CommandEnd i s t) : Inv t := by
  cases h with
  | rejected hi hc h => exact (hs.reject _ _).of_ports h
  | acceptedWrite hi ha h => exact (acceptWrite _ _ _ s).of_ports h
  | acceptedRead hi ha h => exact (acceptRead _ _ _ _ s).of_ports h
  | probeReady hi h => exact (hs.reportProbe _ _ _).of_ports h
  | probeTimedOut hi h => exact (hs.reportProbe _ _ _).of_ports h
  | notPending hi h => exact hs.of_ports h
  | served hi ha h => exact hs.row ha h

theorem step (hs : Inv s) (h : step s = .next t) : Inv t := by
  obtain hq | ⟨i, -, he⟩ := step_end h
  · exact hs.of_ports hq
  · exact hs.command he

theorem reset : Inv State.reset := ⟨fun _ => rfl, fun _ => rfl, nofun, fun _ => rfl⟩

theorem of_reachable (h : Reachable s) : Inv s := by
  induction h with
  | reset => exact reset
  | input _ hin ih => exact ih.of_ports (.of_inputs hin)
  | step _ hst ih => exact ih.step hst

end Inv

/-- Settles O44: every end of a step meets the invariants; T1 to T7 enter recognised pairs only. -/
theorem stepKeepsInvariants : Obligations.StepKeepsInvariants := fun _ _ hs h => hs.step h

/-- Settles O43: reset is idle, unarmed and of DIR Write. -/
theorem resetMeetsInvariants : Obligations.ResetMeetsInvariants := Inv.reset

/-- Settles O45, by induction on how the state is reached. -/
theorem reachableStatesMeetInvariants : Obligations.ReachableStatesMeetInvariants := by
  intro s hs
  obtain ⟨hidle, hunarmed, hrec, hwrite⟩ := Inv.of_reachable hs
  exact ⟨hidle, hunarmed, hrec, hwrite⟩

/-- The codes that RESULT takes where the invariants hold: neither UnexpectedProtocolState nor the code 7 (R207). -/
def Reportable (c : ResultCode) : Prop := c ≠ .unexpectedProtocolState ∧ c ≠ .neverWritten

theorem reportable_of_isRejectCode {c : ResultCode} (h : isRejectCode c = true) : Reportable c := by
  constructor <;> rintro rfl <;> cases h

theorem reportable_of_row {s t : State} (hs : Inv s) (ha : s.active = true)
    (h : RowEnd (decodeStep s.dir s.state) s t) : Reportable t.result := by
  cases h with
  | advanced _ h | nacked _ h | captured _ h => rw [h.result]; exact ⟨nofun, nofun⟩
  | ended hr h =>
    rw [h.result]
    obtain ⟨rfl, -⟩ | ⟨-, hun⟩ := pair_of_endsWith hr
    · exact ⟨nofun, nofun⟩
    · exact absurd ((hs.activeRecognised ha).symm.trans hun) (by decide)

theorem reportable_of_step {s t : State} (hs : Inv s) (hres : Reportable s.result) (hst : step s = .next t) :
    Reportable t.result := by
  obtain hq | ⟨i, -, he⟩ := step_end hst
  · rwa [hq.result]
  · cases he with
    | rejected _ hc h => rw [h.result]; exact reportable_of_isRejectCode hc
    | acceptedWrite _ _ h | acceptedRead _ _ h | probeReady _ h | probeTimedOut _ h =>
      rw [h.result]; exact ⟨nofun, nofun⟩
    | notPending _ h => rwa [h.result]
    | served _ ha h => exact reportable_of_row hs ha h

theorem reportable_of_reachable {s : State} (h : Reachable s) : Reportable s.result := by
  induction h with
  | reset => exact ⟨nofun, nofun⟩
  | input _ hin ih => obtain ⟨_, _, _, rfl⟩ := hin; exact ih
  | step hr hst ih => exact reportable_of_step (Inv.of_reachable hr) ih hst

/-- Settles O55: code 6 is reported by a UX row only, and R35 keeps an engine in flight out of its pairs. -/
theorem unexpectedStateNeverReported : Obligations.UnexpectedStateNeverReported :=
  ⟨fun _ _ hs h6 h7 hst => reportable_of_step hs ⟨h6, h7⟩ hst, fun _ hs => reportable_of_reachable hs⟩

end Sys2Proof.Machine

/-! ### Who writes which field (R21 to R34) -/

namespace Sys2Proof.Machine

variable {s t : State} {i : Instr} {r : StepRow}

/-- The target of a transaction is kept, and ACTIVE is not set. -/
structure KeepsTarget (s t : State) : Prop where
  dir : t.dir = s.dir
  sa : t.sa = s.sa
  reg : t.reg = s.reg
  ctx : t.ctx = s.ctx
  active : s.active = false → t.active = false

theorem KeepsTarget.of_ports (h : SameButPorts s t) : KeepsTarget s t :=
  ⟨h.dir, h.sa, h.reg, h.ctx, h.active.trans⟩

/-- Nothing that O47 lists changed. -/
theorem KeepsTarget.not_written (h : KeepsTarget s t) :
    ¬ (t.dir ≠ s.dir ∨ t.sa ≠ s.sa ∨ t.reg ≠ s.reg ∨ t.ctx ≠ s.ctx ∨ (s.active = false ∧ t.active = true)) := by
  rintro (hdir | hsa | hreg | hctx | ⟨hs, ht⟩)
  · exact hdir h.dir
  · exact hsa h.sa
  · exact hreg h.reg
  · exact hctx h.ctx
  · exact absurd ((h.active hs).symm.trans ht) (by decide)

theorem RowEnd.keepsTarget (h : RowEnd r s t) : KeepsTarget s t := by
  cases h with
  | advanced _ h | captured _ h => exact ⟨h.dir, h.sa, h.reg, h.ctx, h.active.trans⟩
  | nacked _ h | ended _ h => exact ⟨h.dir, h.sa, h.reg, h.ctx, fun _ => h.active⟩

/-- Only an accepted begin writes the target (R22 to R24, R26). -/
theorem CommandEnd.keepsTarget_or_accepted (h : CommandEnd i s t) :
    KeepsTarget s t ∨ (isBegin i = true ∧ t.result = .ok) := by
  cases h with
  | rejected _ _ h | probeReady _ h | probeTimedOut _ h | notPending _ h =>
    exact .inl ⟨h.dir, h.sa, h.reg, h.ctx, h.active.trans⟩
  | acceptedWrite hi _ h | acceptedRead hi _ h => subst hi; exact .inr ⟨rfl, h.result⟩
  | served _ _ h => exact .inl h.keepsTarget

theorem RowEnd.data0_eq_or_t7 (h : RowEnd r s t) : t.data0 = s.data0 ∨ (r = .t7 ∧ t.state = .dr) := by
  cases h with
  | advanced _ h | nacked _ h | ended _ h => exact .inl h.data0
  | captured hr h => exact .inr ⟨hr, h.state⟩

/-- Only an accepted BWR and T7 write DATA0 (R25, R38). -/
theorem CommandEnd.data0_cases (h : CommandEnd i s t) :
    t.data0 = s.data0 ∨ (∃ sa rg, i = .bwr sa rg t.data0 ∧ t.result = .ok) ∨
      (i = .svc ∧ s.active = true ∧ s.dir = .read ∧ s.state = .rs ∧ t.state = .dr) := by
  cases h with
  | rejected _ _ h | acceptedRead _ _ h | probeReady _ h | probeTimedOut _ h | notPending _ h => exact .inl h.data0
  | @acceptedWrite sa rg data hi _ h =>
    have hdata : t.data0 = data := h.data0
    exact .inr (.inl ⟨sa, rg, hdata ▸ hi, h.result⟩)
  | served hi ha h =>
    obtain hkept | ⟨ht7, hdr⟩ := h.data0_eq_or_t7
    · exact .inl hkept
    · obtain ⟨hdir, hstate⟩ := readSwitch_of_t7 ht7
      exact .inr (.inr ⟨hi, ha, hdir, hstate, hdr⟩)

/-- Settles O47: the begins write the target, and T7 the byte it read. -/
theorem onlyBeginsWriteTheTarget : Obligations.OnlyBeginsWriteTheTarget := by
  intro s t h
  obtain hq | ⟨i, hi, he⟩ := step_end h
  · exact ⟨fun hw => absurd hw (KeepsTarget.of_ports hq).not_written, fun hd => absurd hq.data0 hd⟩
  · rw [hi]
    refine ⟨fun hw => ?_, fun hd => ?_⟩
    · obtain hk | ⟨hb, hok⟩ := he.keepsTarget_or_accepted
      · exact absurd hw hk.not_written
      · exact ⟨i, rfl, hb, hok⟩
    · obtain hkept | ⟨sa, rg, rfl, hok⟩ | ⟨rfl, hcaptured⟩ := he.data0_cases
      · exact absurd hkept hd
      · exact .inl ⟨sa, rg, rfl, hok⟩
      · exact .inr ⟨rfl, hcaptured⟩

/-! RESULT, TO and PRB. -/

theorem RowEnd.keepsReportBits (h : RowEnd r s t) : t.tmo = s.tmo ∧ t.prb = s.prb := by
  cases h with
  | advanced _ h | nacked _ h | captured _ h | ended _ h => exact ⟨h.tmo, h.prb⟩

/-- An instruction is a command or a row of the service step. -/
theorem isCommand_or_row (i : Instr) :
    (i.isCommand = true ∧ i.isStepRow = false) ∨ ∃ r : StepRow, i = r.toInstr := by
  cases i with
  | bwr | brd | svc | ptc | pbb | pmm => exact .inl ⟨rfl, rfl⟩
  | t1 d => exact .inr ⟨.t1 d, rfl⟩
  | t2 => exact .inr ⟨.t2, rfl⟩
  | t3 => exact .inr ⟨.t3, rfl⟩
  | t4 => exact .inr ⟨.t4, rfl⟩
  | t5 => exact .inr ⟨.t5, rfl⟩
  | t6 => exact .inr ⟨.t6, rfl⟩
  | t7 => exact .inr ⟨.t7, rfl⟩
  | t8 => exact .inr ⟨.t8, rfl⟩
  | uxWrite low => exact .inr ⟨.uxWrite low, rfl⟩
  | uxRead low => exact .inr ⟨.uxRead low, rfl⟩
  | uxReadSeven => exact .inr ⟨.uxReadSeven, rfl⟩

@[simp] theorem exec_toInstr (r : StepRow) (s : State) : exec r.toInstr s = .next (runRow r s) := by cases r <;> rfl

@[simp] theorem isBegin_toInstr (r : StepRow) : isBegin r.toInstr = false := by cases r <;> rfl

@[simp] theorem isProbe_toInstr (r : StepRow) : isProbe r.toInstr = false := by cases r <;> rfl

theorem CommandEnd.tmo_of_svc (h : CommandEnd .svc s t) : t.tmo = s.tmo := by
  cases h with
  | rejected hi | acceptedWrite hi | acceptedRead hi | probeReady hi | probeTimedOut hi => cases hi
  | notPending _ h => exact h.tmo
  | served _ _ h => exact h.keepsReportBits.1

theorem CommandEnd.prb_of_not_isProbe (h : CommandEnd i s t) (hi : isProbe i = false) : t.prb = s.prb := by
  cases h with
  | rejected _ _ h | acceptedWrite _ _ h | acceptedRead _ _ h | notPending _ h => exact h.prb
  | probeReady hp _ | probeTimedOut hp _ => exact absurd (hp.symm.trans hi) (by decide)
  | served _ _ h => exact h.keepsReportBits.2

/-- A command other than SVC that sets TO reports an error (R31). -/
theorem CommandEnd.result_ne_ok_of_tmo (h : CommandEnd i s t) (hi : i ≠ .svc) (ht : t.tmo = true) :
    t.result ≠ .ok := by
  cases h with
  | rejected _ hc h => rw [h.result, reject_result]; rintro rfl; cases hc
  | acceptedWrite _ _ h | acceptedRead _ _ h | probeReady _ h => rw [h.tmo] at ht; cases ht
  | probeTimedOut _ h => rw [h.result]; exact nofun
  | notPending hsvc _ | served hsvc _ _ => exact absurd hsvc hi

/-- Settles O48: begins and probes write TO, probes write PRB, and a step that runs no command keeps RESULT. -/
theorem reportFieldWriters : Obligations.ReportFieldWriters := by
  refine ⟨fun i s t h => ?_, fun s t h hres => ?_⟩
  · obtain ⟨hc, hrow⟩ | ⟨r, rfl⟩ := isCommand_or_row i
    · have he := exec_end hc h
      refine ⟨?_, he.prb_of_not_isProbe, fun hbp => he.result_ne_ok_of_tmo ?_⟩
      · rintro (rfl | hr)
        · exact he.tmo_of_svc
        · exact absurd (hrow.symm.trans hr) (by decide)
      · rintro rfl
        exact absurd hbp (by decide)
    · obtain rfl := Host.Outcome.next.inj ((exec_toInstr r s).symm.trans h)
      obtain ⟨htmo, hprb⟩ := (runRow_end r s).keepsReportBits
      exact ⟨fun _ => htmo, fun _ => hprb, by simp⟩
  · obtain hq | ⟨i, hi, -⟩ := step_end h
    · exact absurd hq.result hres
    · exact ⟨i, hi⟩

/-! The completion. -/

theorem RowEnd.events_cases (h : RowEnd r s t) :
    t.events = s.events ∨
      (r = .t7 ∧ s.armed = true ∧ t.events = s.events ++ [⟨s.ctx, t.data0⟩] ∧ t.armed = false) := by
  cases h with
  | advanced _ h | nacked _ h | ended _ h => exact .inl h.events
  | captured hr h =>
    rw [h.events, h.data0]
    cases ha : s.armed with
    | false => exact .inl (by simp [capture, ha])
    | true => exact .inr ⟨hr, rfl, by simp [capture, ha], h.armed⟩

/-- Only T7 of an armed read emits, one event (R33). -/
theorem CommandEnd.events_cases (h : CommandEnd i s t) :
    t.events = s.events ∨
      (t.events = s.events ++ [⟨s.ctx, t.data0⟩] ∧ i = .svc ∧ s.active = true ∧ s.dir = .read ∧ s.state = .rs ∧
        s.armed = true ∧ t.armed = false) := by
  cases h with
  | rejected _ _ h | acceptedWrite _ _ h | acceptedRead _ _ h | probeReady _ h | probeTimedOut _ h
  | notPending _ h => exact .inl h.events
  | served hi ha h =>
    obtain hkept | ⟨ht7, harmed, hevent, hdisarmed⟩ := h.events_cases
    · exact .inl hkept
    · obtain ⟨hdir, hstate⟩ := readSwitch_of_t7 ht7
      exact .inr ⟨hevent, hi, ha, hdir, hstate, harmed, hdisarmed⟩

theorem RowEnd.armed_eq_or_false (h : RowEnd r s t) : t.armed = s.armed ∨ t.armed = false := by
  cases h with
  | advanced _ h => exact .inl h.armed
  | nacked _ h | captured _ h | ended _ h => exact .inr h.armed

/-- Only an accepted BRD with ARM = 1 arms a completion (R33). -/
theorem CommandEnd.armed_cases (h : CommandEnd i s t) :
    t.armed = s.armed ∨ t.armed = false ∨ (∃ sa rg ctx, i = .brd sa rg ctx true ∧ t.result = .ok) := by
  cases h with
  | rejected _ _ h | probeReady _ h | probeTimedOut _ h | notPending _ h => exact .inl h.armed
  | acceptedWrite _ _ h => exact .inr (.inl h.armed)
  | @acceptedRead sa rg ctx arm hi _ h =>
    cases arm with
    | false => exact .inr (.inl h.armed)
    | true => exact .inr (.inr ⟨sa, rg, ctx, hi, h.result⟩)
  | served _ _ h =>
    obtain hkept | hdisarmed := h.armed_eq_or_false
    · exact .inl hkept
    · exact .inr (.inl hdisarmed)

/-- Settles O50: T7 emits and disarms at once, and arming is the accepted BRD's. -/
theorem completionIsSingleShot : Obligations.CompletionIsSingleShot := by
  intro s t h
  obtain hq | ⟨i, hi, he⟩ := step_end h
  · refine ⟨.inl hq.events, fun hs ht => ?_⟩
    exact absurd (hs.symm.trans (hq.armed.symm.trans ht)) (by decide)
  · refine ⟨?_, fun hs ht => ?_⟩
    · rw [hi, Option.some_inj]
      exact he.events_cases
    · obtain hkept | hdisarmed | ⟨sa, rg, ctx, rfl, hok⟩ := he.armed_cases
      · exact absurd (hs.symm.trans (hkept.symm.trans ht)) (by decide)
      · exact absurd (hdisarmed.symm.trans ht) (by decide)
      · exact ⟨sa, rg, ctx, hi, hok⟩

/-! The end of a transaction. -/

/-- How the row that an SVC selected ends the transaction, if it does (R138, R244). -/
theorem RowEnd.out_of_flight (h : RowEnd (decodeStep s.dir s.state) s t) (hs : s.active = true)
    (ht : t.active = false) :
    t.state = .aw ∧ t.armed = false ∧ t.events = s.events ∧
      ((t.result = .ok ∧ ((s.dir = .write ∧ s.state = .wd) ∨ (s.dir = .read ∧ s.state = .dr))) ∨
        (t.result = .acknowledgeMissing ∧
          (s.state = .aw ∨ s.state = .cw ∨ (s.dir = .write ∧ s.state = .dw) ∨ (s.dir = .read ∧ s.state = .ar))) ∨
        (t.result = .unexpectedProtocolState ∧ recognised s.dir s.state = false)) := by
  cases h with
  | advanced _ h | captured _ h => exact absurd (hs.symm.trans (h.active.symm.trans ht)) (by decide)
  | nacked hr h => exact ⟨h.state, h.armed, h.events, .inr (.inl ⟨h.result, ackPoint_of_enters hr⟩)⟩
  | ended hr h =>
    refine ⟨h.state, h.armed, h.events, ?_⟩
    rw [h.result, recover_result]
    obtain ⟨rfl, hend⟩ | ⟨rfl, hun⟩ := pair_of_endsWith hr
    · exact .inl ⟨rfl, hend⟩
    · exact .inr (.inr ⟨rfl, hun⟩)

/-- A command that clears ACTIVE is an SVC that ran a row. -/
theorem CommandEnd.served_of_out_of_flight (h : CommandEnd i s t) (hs : s.active = true)
    (ht : t.active = false) : i = .svc ∧ RowEnd (decodeStep s.dir s.state) s t := by
  cases h with
  | rejected _ _ h | probeReady _ h | probeTimedOut _ h | notPending _ h =>
    exact absurd (hs.symm.trans (h.active.symm.trans ht)) (by decide)
  | acceptedWrite _ ha _ | acceptedRead _ ha _ => exact absurd (hs.symm.trans ha) (by decide)
  | served hi _ h => exact ⟨hi, h⟩

/-- Settles O51: the only command that leaves flight is an SVC, by a row that recovers or ends the transaction. -/
theorem waysOutOfFlight : Obligations.WaysOutOfFlight := by
  intro s t h hs ht
  obtain hq | ⟨i, hi, he⟩ := step_end h
  · exact absurd (hs.symm.trans (hq.active.symm.trans ht)) (by decide)
  · obtain ⟨rfl, hrow⟩ := he.served_of_out_of_flight hs ht
    exact ⟨hi, hrow.out_of_flight hs ht⟩

end Sys2Proof.Machine

/-! ### Register layouts, conditions and numbers (R28, R29, R36, R37, R47) -/

namespace Sys2Proof.Machine

/-- What stands below in a concatenation adds to what stands above it. -/
theorem toNat_append_eq_add {m n : Nat} (x : BitVec m) (y : BitVec n) :
    (x ++ y).toNat = x.toNat * 2 ^ n + y.toNat := by
  rw [BitVec.toNat_append, ← Nat.shiftLeft_add_eq_or_of_lt y.isLt, Nat.shiftLeft_eq]

/-- Settles O16: the word is a concatenation, read as a numeral. -/
theorem statusLayout : Obligations.StatusLayout := by
  intro s p
  simp only [statusWord, toNat_append_eq_add, BitVec.toNat_ofBool, BitVec.toNat_ofNat]
  omega

/-- Settles O17, as O16. -/
theorem packetLayout : Obligations.PacketLayout := by
  intro s
  simp only [packetWord, toNat_append_eq_add, BitVec.toNat_ofNat]
  omega

theorem recognised_iff (d : Dir) (p : ProtoState) : recognised d p = true ↔
    ((d = .write ∧ (p = .aw ∨ p = .cw ∨ p = .dw ∨ p = .wd)) ∨
      (d = .read ∧ (p = .aw ∨ p = .cw ∨ p = .ar ∨ p = .rs ∨ p = .dr))) := by
  cases d <;> cases p <;> decide

theorem terminal_iff (d : Dir) (p : ProtoState) : terminal d p = true ↔
    ((d = .write ∧ p = .wd) ∨ (d = .read ∧ p = .dr) ∨ recognised d p = false) := by
  simp [terminal, or_assoc]

theorem pend_iff (s : State) (iif : Bool) : pend s iif = true ↔
    (s.active = true ∧ (iif = true ∨ terminal s.dir s.state = true)) := by
  simp [pend]

/-- Settles O18: PEND speaks of TERMINAL, and that of the pairs. -/
theorem pendRule : Obligations.PendRule := by
  refine ⟨recognised_iff, terminal_iff, fun s iif => ?_, fun _ _ => rfl⟩
  rw [pend_iff, terminal_iff]

/-- Settles O42, by evaluating the reset state. -/
theorem resetValues : Obligations.ResetValues := by
  unfold Obligations.ResetValues
  decide

/-- Settles O60, by evaluating the three tables. -/
theorem fieldNumbers : Obligations.FieldNumbers := by
  unfold Obligations.FieldNumbers
  decide

end Sys2Proof.Machine

/-! ### The host command port (R61 to R64, R66): where an access falls, what a step does with it, and the loader

First the equation of each layer of an access (the step, the window, the aligned word), then addresses against `BASE`;
the statements of 20_memory.md are read off these. -/

namespace Sys2Proof.Machine

variable {s : State} {a : Access} {rest : List Access} {addr width : Nat} {off : Int} {v w : Word} {i : Instr}

/-! The layers of an access. -/

theorem step_of_no_access (h : s.accesses = []) : step s = .next s := by
  simp [step, stepAccess, h]

theorem step_of_access (h : s.accesses = a :: rest) : step s = hostAccess a { s with accesses := rest } := by
  simp [step, stepAccess, h]

theorem hostAccess_outside (h : ¬ a.inWindow = true) : hostAccess a s = .fault .outsideWindow := if_neg h

theorem hostAccess_reserved (hin : a.inWindow = true) (hal : ¬ a.isAlignedWord = true) :
    hostAccess a s = .refused .reservedAccess := by
  simp only [hostAccess, if_pos hin, if_neg hal]

theorem hostAccess_word (hin : a.inWindow = true) (hal : a.isAlignedWord = true) :
    hostAccess a s = wordAccess a s := by
  simp only [hostAccess, if_pos hin, if_pos hal]

@[simp] theorem wordAccess_read : wordAccess ⟨.read, off, width⟩ s = .next (giveHost (readWindow off s)) := rfl

theorem wordAccess_write_ignored (h : off ≠ 0) : wordAccess ⟨.write v, off, width⟩ s = .next s := by
  simp [wordAccess, h]

theorem writeCommand_of_decodeCmd (h : decodeCmd w = .ok i) : writeCommand w s = exec i s := by
  simp only [writeCommand, h]

theorem hostAccess_cmd (w : Word) (s : State) : hostAccess (Access.cmd w) s = writeCommand w s := rfl

/-! What a read of each word of the window gives (R61, R63). -/

theorem readWindow_packet (s : State) : readWindow 8 s = (packetWord s, s) := rfl

theorem readWindow_zero (h4 : off ≠ 4) (h8 : off ≠ 8) : readWindow off s = (0#32, s) := by
  simp [readWindow, h4, h8]

theorem readWindow_status_idle (h : s.active = false) : readWindow 4 s = (statusWord s false, s) := by
  simp [readWindow, readStatus, h]

theorem readWindow_status_inFlight (h : s.active = true) :
    readWindow 4 s = (statusWord s (pend s (s.flagAt .iicif 0)), s.drawFlag .iicif) := by
  simp [readWindow, readStatus, h]

/-! Addresses. -/

/-- R8: `BASE` is a multiple of 4, so an address and its offset are aligned alike. -/
theorem base_mod_four : Config.base % 4 = 0 := by
  unfold Config.base
  omega

theorem inWindow_iff (ha : a.off = (addr : Int) - (Config.base : Int)) :
    a.inWindow = true ↔ Config.base ≤ addr ∧ addr ≤ Config.base + 0x0F := by
  simp only [Access.inWindow, ha, Bool.and_eq_true, decide_eq_true_eq]
  omega

theorem isAlignedWord_iff (ha : a.off = (addr : Int) - (Config.base : Int)) :
    a.isAlignedWord = true ↔ a.width = 4 ∧ addr % 4 = 0 := by
  have hbase := base_mod_four
  simp only [Access.isAlignedWord, ha, Bool.and_eq_true, beq_iff_eq]
  omega

/-- A read and a write at one address are at one offset and of one width. -/
theorem access_at (h : s.accesses = Access.memRead Config.base addr width :: rest ∨
    s.accesses = Access.memWrite Config.base addr width v :: rest) :
    ∃ a, s.accesses = a :: rest ∧ a.off = (addr : Int) - (Config.base : Int) ∧ a.width = width := by
  obtain h | h := h
  · exact ⟨_, h, rfl, rfl⟩
  · exact ⟨_, h, rfl, rfl⟩

/-- An aligned word access in the window reaches its register. -/
theorem step_of_aligned_word (hs : s.accesses = a :: rest) (ha : a.off = (addr : Int) - (Config.base : Int))
    (hlo : Config.base ≤ addr) (hhi : addr ≤ Config.base + 0x0F) (hw : a.width = 4) (hal : addr % 4 = 0) :
    step s = wordAccess a { s with accesses := rest } := by
  rw [step_of_access hs, hostAccess_word ((inWindow_iff ha).2 ⟨hlo, hhi⟩) ((isAlignedWord_iff ha).2 ⟨hw, hal⟩)]

/-- A word access at `BASE + n`, for the aligned `n` of the window, reaches the register at offset `n` (R61). -/
theorem step_of_word_at {op : AccessOp} {n : Nat} (hn : n < 16) (hal : n % 4 = 0)
    (hs : s.accesses = ⟨op, ((Config.base + n : Nat) : Int) - (Config.base : Int), 4⟩ :: rest) :
    step s = wordAccess ⟨op, n, 4⟩ { s with accesses := rest } := by
  have hbase := base_mod_four
  have hoff : ((Config.base + n : Nat) : Int) - (Config.base : Int) = n := by omega
  rw [step_of_aligned_word hs rfl (by omega) (by omega) rfl (by omega), hoff]

/-- R63: an aligned word read returns what its register reads. -/
theorem step_of_read {n : Nat} {t : State} (hn : n < 16) (hal : n % 4 = 0)
    (hs : s.accesses = Access.memRead Config.base (Config.base + n) 4 :: rest)
    (hr : readWindow n { s with accesses := rest } = (w, t)) :
    step s = .next { t with readData := t.readData ++ [w] } := by
  rw [step_of_word_at hn hal hs, wordAccess_read, hr]
  rfl

/-! The obligations on accesses. -/

/-- Settles O13: the window is exactly `BASE` to `BASE + 0x0F`. -/
theorem outsideWindowFaults : Obligations.OutsideWindowFaults := by
  intro s rest addr width v hout hs
  obtain ⟨a, hs, ha, -⟩ := access_at hs
  have hin : ¬ a.inWindow = true := by
    rw [inWindow_iff ha]
    omega
  rw [step_of_access hs, hostAccess_outside hin]

/-- Settles O12: in the window, only an aligned word gets past the port, and a read of one always completes. -/
theorem reservedAccessesAreRefused : Obligations.ReservedAccessesAreRefused := by
  refine ⟨fun s rest addr width v hlo hhi hbad hs => ?_, fun s rest addr hlo hhi hal hs => ?_⟩
  · obtain ⟨a, hs, ha, hw⟩ := access_at hs
    have hres : ¬ a.isAlignedWord = true := by
      rw [isAlignedWord_iff ha, hw]
      omega
    rw [step_of_access hs, hostAccess_reserved ((inWindow_iff ha).2 ⟨hlo, hhi⟩) hres]
  · exact ⟨_, step_of_aligned_word hs rfl hlo hhi rfl hal⟩

/-- Settles O14: each word's offset selects its register; only a STATUS read in flight draws. -/
theorem windowReads : Obligations.WindowReads := by
  intro s rest
  refine ⟨?zero, fun hs => ?packet, fun ha hs => ?statusIdle, fun ha hs => ?statusInFlight⟩
  case zero =>
    rintro off (rfl | rfl) hs <;>
      exact step_of_read (by decide) rfl hs (readWindow_zero (by decide) (by decide))
  case packet => exact step_of_read (by decide) rfl hs (readWindow_packet _)
  case statusIdle => exact step_of_read (by decide) rfl hs (readWindow_status_idle ha)
  case statusInFlight => exact step_of_read (by decide) rfl hs (readWindow_status_inFlight ha)

/-- Settles O15: of the four words only CMD, at offset 0, takes a write. -/
theorem windowWritesAreIgnored : Obligations.WindowWritesAreIgnored := by
  intro s rest off v hoff hs
  rw [step_of_word_at (by omega) (by omega) hs, wordAccess_write_ignored (by omega)]

/-! Command words and the loader. -/

/-- The word write to `BASE` is the write to CMD (R61). -/
theorem memWrite_base (w : Word) : Access.memWrite Config.base Config.base 4 w = Access.cmd w := by
  simp [Access.memWrite, Access.cmd]

/-- R64, R72: a command word that waits at CMD runs. -/
theorem step_of_cmd (hs : s.accesses = Access.cmd w :: rest) (hd : decodeCmd w = .ok i) :
    step s = exec i { s with accesses := rest } := by
  rw [step_of_access hs, hostAccess_cmd, writeCommand_of_decodeCmd hd]

/-- Settles O8: the write to `BASE` is a write to CMD, which runs the word. -/
theorem stepRunsWrittenCommand : Obligations.StepRunsWrittenCommand := by
  refine ⟨fun s rest w i hs hd => ?_, fun s hs => step_of_no_access hs⟩
  rw [memWrite_base] at hs
  exact step_of_cmd hs hd

/-- R122, R123: an SVC that is pending runs the prelude and the row that {DIR, STATE} selects. -/
theorem exec_svc_of_pend (ha : s.active = true) (hp : pend s (s.flagAt .iicif 0) = true) :
    exec .svc s = exec (decodeStep s.dir s.state).toInstr (prelude (s.flagAt .iicif 0) (s.drawFlag .iicif)) := by
  have hservice : exec .svc s = .next (service s) := rfl
  obtain ⟨ha', -⟩ | ⟨-, hp', -⟩ | ⟨-, -, hrow⟩ := service_cases s
  · exact absurd (ha.symm.trans ha') (by decide)
  · exact absurd (hp.symm.trans hp') (by decide)
  · rw [hservice, hrow, exec_toInstr]

theorem step_withCommand (hd : decodeCmd w = .ok i) : step (s.withCommand w) = exec i s :=
  step_of_cmd rfl hd

/-- The loader's SVC finds its vector's pair in flight with an interrupt, so it is pending and runs the vector's row. -/
theorem step_withStepVec (s : State) (v : BitVec 4) :
    step (s.withStepVec v) = exec (decodeStepVec v).toInstr (prelude true
      { s with dir := vecDir v, state := vecState v, active := true, draws := s.draws ++ [.flag .iicif true] }) :=
  (step_withCommand (i := .svc) rfl).trans (exec_svc_of_pend rfl rfl)

theorem decodeTableWord_eq_some {n m : Nat} (h : decodeTableWord n m = some i) :
    ∃ c, tableCode n m = some c ∧ decode c = .ok i := by
  unfold decodeTableWord at h
  split at h
  next c hc =>
    refine ⟨c, hc, ?_⟩
    cases hd : decode c with
    | ok j => rw [hd] at h; exact congrArg _ (Option.some.inj h)
    | error e => rw [hd] at h; cases h
  next => cases h

/-- A 32-bit row is a command word. -/
theorem tableCode_cmd {m : Nat} {c : Code} (h : tableCode 32 m = some c) : ∃ w, c = .cmd w := by
  have hword : m < 2 ^ 32 ∧ .cmd (BitVec.ofNat 32 m) = c := by simpa [tableCode] using h
  exact ⟨_, hword.2.symm⟩

/-- An 8-bit row is its `STEP` vector (R89). -/
theorem tableCode_step (v : BitVec 4) : tableCode 8 v.toNat = some (.step v) := by
  simp [tableCode, v.isLt]

/-- Settles O9: each format's row is loaded as its own code, and that code's step runs it. -/
theorem fetchWordRunsInstruction : Obligations.FetchWordRunsInstruction := by
  refine ⟨fun s m i h => ?_, fun s v i h => ?_⟩
  · obtain ⟨c, hc, hd⟩ := decodeTableWord_eq_some h
    obtain ⟨w, rfl⟩ := tableCode_cmd hc
    rw [State.withFetchWord, hc]
    exact step_withCommand hd
  · obtain ⟨c, hc, hd⟩ := decodeTableWord_eq_some h
    rw [tableCode_step] at hc
    cases hc
    obtain rfl := Except.ok.inj hd
    rw [State.withFetchWord, tableCode_step]
    exact step_withStepVec s v

end Sys2Proof.Machine

/-! ### The command encoding (R81 to R94): a packed word's fields, what a word decodes to, and the round trips

First the fields of a packed word and the word of its fields. Then one statement of everything `decodeCmd` can answer;
the statements of 30_encoding.md on words are read off it. -/

namespace Sys2Proof

variable {w : Word} {i : Instr}

/-! The fields of a packed word (R81, R91). -/

section
variable (op : BitVec 4) (sa : SlaveAddr) (rg dt : Byte) (arm : Bool)

/-- The packed word's numeral and the bound of each digit, for the arithmetic on its fields. -/
theorem packCmd_digits :
    (packCmd op sa rg dt arm).toNat
        = op.toNat + sa.toNat * 2 ^ 4 + rg.toNat * 2 ^ 11 + dt.toNat * 2 ^ 19 + arm.toNat * 2 ^ 27 ∧
      op.toNat < 2 ^ 4 ∧ sa.toNat < 2 ^ 7 ∧ rg.toNat < 2 ^ 8 ∧ dt.toNat < 2 ^ 8 ∧ arm.toNat < 2 :=
  ⟨packCmd_toNat op sa rg dt arm, op.isLt, sa.isLt, rg.isLt, dt.isLt, arm.toNat_lt⟩

@[simp] theorem op_packCmd : Word.op (packCmd op sa rg dt arm) = op := by
  have hdigits := packCmd_digits op sa rg dt arm
  rw [BitVec.toNat_eq, op_toNat]
  omega

@[simp] theorem fieldSA_packCmd : Word.fieldSA (packCmd op sa rg dt arm) = sa := by
  have hdigits := packCmd_digits op sa rg dt arm
  rw [BitVec.toNat_eq, fieldSA_toNat]
  omega

@[simp] theorem fieldRG_packCmd : Word.fieldRG (packCmd op sa rg dt arm) = rg := by
  have hdigits := packCmd_digits op sa rg dt arm
  rw [BitVec.toNat_eq, fieldRG_toNat]
  omega

@[simp] theorem fieldDT_packCmd : Word.fieldDT (packCmd op sa rg dt arm) = dt := by
  have hdigits := packCmd_digits op sa rg dt arm
  rw [BitVec.toNat_eq, fieldDT_toNat]
  omega

@[simp] theorem fieldARM_packCmd : Word.fieldARM (packCmd op sa rg dt arm) = arm := by
  have hdigits := packCmd_digits op sa rg dt arm
  rw [Bool.eq_iff_iff, fieldARM_iff, ← Bool.toNat_eq_one]
  omega

@[simp] theorem zeroFrom_packCmd : Word.zeroFrom (packCmd op sa rg dt arm) 28 = true := by
  have hdigits := packCmd_digits op sa rg dt arm
  rw [zeroFrom_iff]
  omega

@[simp] theorem zeroFrom_packCmd_unarmed : Word.zeroFrom (packCmd op sa rg dt false) 27 = true := by
  have hdigits := packCmd_digits op sa rg dt false
  rw [zeroFrom_iff]
  simp only [Bool.toNat_false] at hdigits
  omega

end

theorem fieldARM_toNat (w : Word) : (Word.fieldARM w).toNat = w.toNat / 2 ^ 27 % 2 := by
  have harm := fieldARM_iff w
  have hlt := (Word.fieldARM w).toNat_lt
  rw [← Bool.toNat_eq_one] at harm
  omega

/-- A word whose bits [31:28] are 0 is the packing of its fields (R81). -/
theorem packCmd_fields (hz : w.toNat < 2 ^ 28) :
    packCmd (Word.op w) (Word.fieldSA w) (Word.fieldRG w) (Word.fieldDT w) (Word.fieldARM w) = w := by
  rw [BitVec.toNat_eq, packCmd_toNat, op_toNat, fieldSA_toNat, fieldRG_toNat, fieldDT_toNat, fieldARM_toNat]
  omega

/-- With bit 27 also 0, ARM is 0 (R87). -/
theorem fieldARM_eq_false (hz : w.toNat < 2 ^ 27) : Word.fieldARM w = false := by
  rw [← Bool.toNat_eq_zero, fieldARM_toNat]
  omega

/-! What a word decodes to (R82, R87, R93). -/

/-- The commands without operands, by OP (R82). -/
inductive BareOp : Nat → Instr → Prop where
  | svc : BareOp 3 .svc
  | ptc : BareOp 4 .ptc
  | pbb : BareOp 5 .pbb
  | pmm : BareOp 6 .pmm

/-- The word of a command without operands is its OP (R87). -/
theorem BareOp.encode_eq {n : Nat} (h : BareOp n i) : encode i = .cmd (BitVec.ofNat 32 n) := by
  cases h <;> rfl

/-- A must-be-zero bit of the word's command is 1, where its OP is a command's (R87). -/
def HasReservedBit (w : Word) : Prop :=
  ((Word.op w).toNat = 1 ∧ 2 ^ 27 ≤ w.toNat) ∨ ((Word.op w).toNat = 2 ∧ 2 ^ 28 ≤ w.toNat) ∨
    (3 ≤ (Word.op w).toNat ∧ (Word.op w).toNat ≤ 6 ∧ 2 ^ 4 ≤ w.toNat)

/-- Everything the decoder can answer on the word `w`, and when. -/
inductive CmdDecode (w : Word) : Except Reserved Instr → Prop where
  | bwr (hop : Word.op w = 1#4) (hz : w.toNat < 2 ^ 27) :
    CmdDecode w (.ok (.bwr (Word.fieldSA w) (Word.fieldRG w) (Word.fieldDT w)))
  | brd (hop : Word.op w = 2#4) (hz : w.toNat < 2 ^ 28) :
    CmdDecode w (.ok (.brd (Word.fieldSA w) (Word.fieldRG w) (Word.fieldDT w) (Word.fieldARM w)))
  | bare {i : Instr} {n : Nat} (hop : (Word.op w).toNat = n) (hi : BareOp n i) (hz : w.toNat < 2 ^ 4) :
    CmdDecode w (.ok i)
  | mustBeZero (h : HasReservedBit w) : CmdDecode w (.error (.mustBeZero (Word.op w)))
  | noCommand (hop : (Word.op w).toNat = 0 ∨ 7 ≤ (Word.op w).toNat) : CmdDecode w (.error (.op (Word.op w)))

theorem BareOp.range {n : Nat} (hi : BareOp n i) : 3 ≤ n ∧ n ≤ 6 := by
  cases hi <;> decide

theorem decodeBare_end {n : Nat} (hop : (Word.op w).toNat = n) (hi : BareOp n i) :
    CmdDecode w (decodeBare w i) := by
  unfold decodeBare
  split
  next hz => exact .bare hop hi ((zeroFrom_iff w 4).1 hz)
  next hz =>
    obtain ⟨hlo, hhi⟩ := hop ▸ hi.range
    exact .mustBeZero (.inr (.inr ⟨hlo, hhi, not_lt.1 (mt (zeroFrom_iff w 4).2 hz)⟩))

theorem decodeCmd_end (w : Word) : CmdDecode w (decodeCmd w) := by
  unfold decodeCmd
  split
  case h_1 hop =>
    split
    next hz => exact .bwr (BitVec.eq_of_toNat_eq hop) ((zeroFrom_iff w 27).1 hz)
    next hz => exact .mustBeZero (.inl ⟨hop, not_lt.1 (mt (zeroFrom_iff w 27).2 hz)⟩)
  case h_2 hop =>
    split
    next hz => exact .brd (BitVec.eq_of_toNat_eq hop) ((zeroFrom_iff w 28).1 hz)
    next hz => exact .mustBeZero (.inr (.inl ⟨hop, not_lt.1 (mt (zeroFrom_iff w 28).2 hz)⟩))
  case h_3 hop => exact decodeBare_end hop .svc
  case h_4 hop => exact decodeBare_end hop .ptc
  case h_5 hop => exact decodeBare_end hop .pbb
  case h_6 hop => exact decodeBare_end hop .pmm
  case h_7 h1 h2 h3 h4 h5 h6 =>
    rw [imp_false] at h1 h2 h3 h4 h5 h6
    exact .noCommand (by omega)

/-- What a word decodes to encodes to that word (R81, R82, R87). -/
theorem encode_of_decodeCmd (h : decodeCmd w = .ok i) : encode i = .cmd w := by
  have hend := decodeCmd_end w
  rw [h] at hend
  cases hend with
  | bwr hop hz => exact congrArg Code.cmd (by rw [← hop, ← fieldARM_eq_false hz, packCmd_fields (by omega)])
  | brd hop hz => exact congrArg Code.cmd (by rw [← hop, packCmd_fields hz])
  | bare hop hi hz =>
    have hw : w.toNat % 16 = w.toNat := Nat.mod_eq_of_lt hz
    rw [hi.encode_eq, ← hop, op_toNat, hw, BitVec.ofNat_toNat, BitVec.setWidth_eq]

/-- A packed BWR decodes to its operands (R82 to R85). -/
theorem decodeCmd_packCmd_bwr (sa : SlaveAddr) (rg data : Byte) :
    decodeCmd (packCmd 1#4 sa rg data false) = .ok (.bwr sa rg data) := by
  simp [decodeCmd]

/-- A packed BRD decodes to its operands and ARM (R82 to R86). -/
theorem decodeCmd_packCmd_brd (sa : SlaveAddr) (rg ctx : Byte) (arm : Bool) :
    decodeCmd (packCmd 2#4 sa rg ctx arm) = .ok (.brd sa rg ctx arm) := by
  simp [decodeCmd]

/-! The vector {DIR, STATE} (R89). -/

@[simp] theorem vecDir_dirStateVec (d : Dir) (p : ProtoState) : vecDir (dirStateVec d p) = d := by
  cases d <;> cases p <;> rfl

@[simp] theorem vecState_dirStateVec (d : Dir) (p : ProtoState) : vecState (dirStateVec d p) = p := by
  cases d <;> cases p <;> rfl

theorem decodeStepVec_dirStateVec (d : Dir) (p : ProtoState) : decodeStepVec (dirStateVec d p) = decodeStep d p := by
  rw [decodeStepVec, vecDir_dirStateVec, vecState_dirStateVec]

theorem encode_decodeStepVec (v : BitVec 4) : encode (decodeStepVec v).toInstr = .step v := by
  revert v
  decide

theorem isStepRow_toInstr (r : StepRow) : r.toInstr.isStepRow = true := by cases r <;> rfl

/-! The round trips. -/

theorem decode_encode (i : Instr) : decode (encode i) = .ok i := by
  cases i with
  | bwr sa rg data => exact decodeCmd_packCmd_bwr sa rg data
  | brd sa rg ctx arm => exact decodeCmd_packCmd_brd sa rg ctx arm
  | svc | ptc | pbb | pmm => rfl
  | t1 dir => cases dir <;> rfl
  | t2 | t3 | t4 | t5 | t6 | t7 | t8 | uxReadSeven => rfl
  | uxWrite low | uxRead low => revert low; decide

/-- An encoding is read back from its bits as the opcode table numbers them. -/
theorem tableCode_self (c : Code) : tableCode c.nbits c.toNat = some c := by
  cases c with
  | cmd w => simp [tableCode, Code.nbits, Code.toNat, w.isLt]
  | step v => exact Machine.tableCode_step v

/-- Settles O2: the digits of a packed word are its operands, and a row's bits name one encoding. -/
theorem decodeOfEncode : Obligations.DecodeOfEncode := by
  intro i
  refine ⟨decode_encode i, ?_⟩
  simp only [decodeTableWord, tableCode_self, decode_encode, acceptedInstr]

/-- Settles O3: a word that decodes is the packing of its fields, and the sixteen vectors are the rows' own. -/
theorem encodeOfDecode : Obligations.EncodeOfDecode :=
  ⟨fun _ _ h => ⟨encode_of_decodeCmd h, Machine.isCommand_of_decodeCmd h⟩,
    fun v => ⟨encode_decodeStepVec v, isStepRow_toInstr _⟩⟩

/-- Settles O6: BWR and BRD are decoded with the word's own fields. -/
theorem operandsAreWordFields : Obligations.OperandsAreWordFields := by
  refine ⟨fun w sa rg data h => ?_, fun w sa rg ctx arm h => ?_⟩
  all_goals
    have hend := decodeCmd_end w
    rw [h] at hend
  · cases hend with
    | bwr => exact ⟨fieldSA_toNat w, fieldRG_toNat w, fieldDT_toNat w⟩
    | bare _ hi => cases hi
  · cases hend with
    | brd => exact ⟨fieldSA_toNat w, fieldRG_toNat w, fieldDT_toNat w, fieldARM_iff w⟩
    | bare _ hi => cases hi

/-! Reserved words (R87, R93). -/

/-- R93's list, as the decoder's two reasons: a must-be-zero bit that is 1, or an OP that is no command's. -/
theorem reservedFields_iff (w : Word) :
    (w.extractLsb' 0 4 = 0#4 ∨ 7 ≤ (w.extractLsb' 0 4).toNat ∨
        (w.extractLsb' 0 4 = 1#4 ∧ w.extractLsb' 27 5 ≠ 0#5) ∨
        (w.extractLsb' 0 4 = 2#4 ∧ w.extractLsb' 28 4 ≠ 0#4) ∨
        (3 ≤ (w.extractLsb' 0 4).toNat ∧ (w.extractLsb' 0 4).toNat ≤ 6 ∧ w.extractLsb' 4 28 ≠ 0#28)) ↔
      HasReservedBit w ∨ (Word.op w).toNat = 0 ∨ 7 ≤ (Word.op w).toNat := by
  have hw : w.toNat < 2 ^ 32 := w.isLt
  have hfield (lo n : Nat) : (w.extractLsb' lo n).toNat = w.toNat / 2 ^ lo % 2 ^ n := bits_toNat w lo n
  simp only [HasReservedBit, op_toNat, ne_eq, BitVec.toNat_eq, hfield, BitVec.toNat_ofNat]
  omega

theorem decodeCmd_error_iff (w : Word) :
    (∃ why, decodeCmd w = .error why) ↔ HasReservedBit w ∨ (Word.op w).toNat = 0 ∨ 7 ≤ (Word.op w).toNat := by
  have hend := decodeCmd_end w
  generalize decodeCmd w = r at hend
  cases hend with
  | bwr hop hz | brd hop hz =>
    refine iff_of_false nofun ?_
    simp only [HasReservedBit, hop, BitVec.toNat_ofNat]
    omega
  | bare hop hi hz =>
    refine iff_of_false nofun ?_
    have hrange := hi.range
    simp only [HasReservedBit, hop]
    omega
  | mustBeZero h => exact iff_of_true ⟨_, rfl⟩ (.inl h)
  | noCommand hop => exact iff_of_true ⟨_, rfl⟩ (.inr hop)

end Sys2Proof

namespace Sys2Proof.Machine

variable {s : State} {rest : List Access} {w : Word} {why : Reserved}

/-- A reserved word that waits at CMD is refused with its reason (R64, R93). -/
theorem step_of_reserved_cmd (hs : s.accesses = Access.cmd w :: rest) (hd : decodeCmd w = .error why) :
    step s = .refused (.reservedCommand why) := by
  rw [step_of_access hs, hostAccess_cmd]
  simp only [writeCommand, hd]

/-- A run of any length keeps the refusal of its first step (log 5). -/
theorem run_of_refused {r : Refusal} (h : step s = .refused r) (n : Nat) :
    Sys2Proof.core.run (n + 1) s = .refused r := by
  have hcore : Sys2Proof.core.step s = .refused r := h
  simp only [Host.Core.run, hcore]

/-- Settles O4: a decoder's error has one of two reasons, and the write to `BASE` hands it to the host. -/
theorem reservedWordsAreRefused : Obligations.ReservedWordsAreRefused := by
  refine fun w => ⟨(decodeCmd_error_iff w).trans (reservedFields_iff w).symm, fun why hd s rest n hs => ?_⟩
  rw [memWrite_base] at hs
  exact run_of_refused (step_of_reserved_cmd hs hd) n

end Sys2Proof.Machine

/-! ### Worked encodings, the step table, the assembler and the address byte (R88 to R91) -/

namespace Sys2Proof

/-- Settles O1: the encoder is the packing formula, and each worked line's word is evaluated. -/
theorem workedCommandEncodings : Obligations.WorkedCommandEncodings := by
  refine ⟨fun _ _ _ => rfl, fun _ _ _ arm => ?_, ?_⟩
  · cases arm <;> rfl
  · decide

/-- Settles O5: the sixteen rows are evaluated; a vector of a pair holds the pair. -/
theorem serviceStepDecodeTable : Obligations.ServiceStepDecodeTable :=
  ⟨rfl, rfl, rfl, rfl, rfl, rfl, rfl, rfl, rfl, rfl, rfl, rfl, rfl, rfl, rfl, rfl, decodeStepVec_dirStateVec⟩

theorem Asm.saInRange_iff (n : Nat) : Asm.saInRange n = true ↔ n ≤ 0x7F := decide_eq_true_iff

theorem Asm.byteInRange_iff (n : Nat) : Asm.byteInRange n = true ↔ n ≤ 0xFF := decide_eq_true_iff

/-- A line makes the word of its instruction exactly where it is well formed (R90). -/
theorem assemble_eq_ite {a : Asm} {p : Prop} [Decidable p] {w : Word} (hwf : a.wf = true ↔ p)
    (hw : encode a.toInstr = .cmd w) : assemble a = if p then some w else none := by
  simp only [assemble, hwf, hw, Code.word?]

/-- Settles O7: a line is well formed exactly when its operands are in range. -/
theorem assemblerRejectsOutOfRange : Obligations.AssemblerRejectsOutOfRange := by
  refine ⟨fun sa rg data => assemble_eq_ite ?_ rfl, fun sa rg ctx => assemble_eq_ite ?_ rfl,
    fun sa rg => assemble_eq_ite ?_ rfl, fun sa rg ctx => assemble_eq_ite ?_ rfl, rfl, rfl, rfl, rfl⟩
  all_goals simp only [Asm.wf, Bool.and_eq_true, Asm.saInRange_iff, Asm.byteInRange_iff, and_assoc]

end Sys2Proof

namespace Sys2Proof.Machine

/-- The address byte is the address with the direction bit below it (R88). -/
theorem addrByte_eq_append (sa : SlaveAddr) (rw : Dir) : addrByte sa rw = sa ++ rw.bit := by
  rw [addrByte, BitVec.append_def, BitVec.shiftLeftZeroExtend_eq, BitVec.setWidth'_eq]

theorem addrByte_toNat (sa : SlaveAddr) (rw : Dir) : (addrByte sa rw).toNat = sa.toNat * 2 + rw.bit.toNat := by
  rw [addrByte_eq_append, toNat_append_eq_add, Nat.pow_one]

/-- Settles O19: twice the address and the direction bit; the examples are evaluated. -/
theorem addressByte : Obligations.AddressByte := by
  refine ⟨fun sa => ?_, by decide⟩
  simp only [addrByte_toNat, Dir.bit, BitVec.toNat_ofNat]
  omega

end Sys2Proof.Machine

/-! ### The transaction start (R100 to R109): a begin whose checks pass, one that is rejected, and the samples of both -/

namespace Sys2Proof.Machine

variable {limit k k₁ k₂ k₃ : Nat} {f : Flag} {ready : Bool} {s : State} {i : Instr}

/-! What a bounded busy-wait draws, for each of its ends (R160). -/

theorem probe_of_readyAt (h : ReadyAt limit f ready s k) :
    probe limit f ready s = (.ready, s.afterSamples f (k + 1)) := by
  obtain ⟨l, hl, hp⟩ | ⟨hnever, -⟩ := probe_cases limit f ready s
  · rw [readyAt_unique h hl, hp]
  · exact absurd hnever (not_neverReady h)

/-- Samples that all answer `b` are recorded as so many copies of one draw. -/
theorem map_flagAt_eq_replicate {n : Nat} {b : Bool} (h : ∀ j < n, s.flagAt f j = b) :
    (List.range n).map (fun j => Draw.flag f (s.flagAt f j)) = List.replicate n (.flag f b) := by
  rw [List.map_congr_left fun j hj => by rw [h j (List.mem_range.1 hj)], List.map_const', List.length_range]

theorem NeverReady.draws (h : NeverReady limit f ready s) :
    (s.afterSamples f limit).draws = s.draws ++ List.replicate limit (.flag f !ready) := by
  rw [afterSamples_draws, map_flagAt_eq_replicate h]

theorem ReadyAt.draws (h : ReadyAt limit f ready s k) :
    (s.afterSamples f (k + 1)).draws = s.draws ++ (List.replicate k (.flag f !ready) ++ [.flag f ready]) := by
  obtain ⟨-, hready, hbefore⟩ := h
  rw [afterSamples_draws, List.range_succ, List.map_append, map_flagAt_eq_replicate hbefore, List.map_singleton, hready]

/-! A begin whose checks pass (R100 to R103). -/

theorem checkStart_of_busReady (h : BusReady s k₁ k₂) :
    checkStart Config.probeLimit s = checkMaster Config.probeLimit (s.afterBusy k₁ k₂) := by
  simp only [checkStart, h.notInFlight, Bool.false_eq_true, if_false, probe_of_readyAt h.tcf]
  change checkBus Config.probeLimit (s.afterTcf k₁) = _
  simp only [checkBus, probe_of_readyAt h.busy, State.afterBusy]

theorem checkStart_of_beginReady (h : BeginReady s k₁ k₂ k₃) :
    checkStart Config.probeLimit s = ⟨.ok, false, s.afterMst k₁ k₂ k₃⟩ := by
  simp only [checkStart_of_busReady h.toBusReady, checkMaster, probe_of_readyAt h.mst, State.afterMst]

theorem beginWith_of_beginReady (h : BeginReady s k₁ k₂ k₃) (accept : State → State) :
    beginWith Config.probeLimit accept s = accept (s.afterMst k₁ k₂ k₃) := by
  simp only [beginWith, checkStart_of_beginReady h, beq_self_eq_true, if_true]

theorem startBus_eq (s : State) :
    startBus s =
      { s with busHistory := s.busHistory ++ [.clrif, .tx, .start, .write (addrByte s.sa .write)] } := by
  simp only [startBus, busAct, List.append_assoc, List.cons_append, List.nil_append]

/-- Settles O28: the checks pass, and the acceptance runs on the state after their samples. -/
theorem bwrAccepted : Obligations.BwrAccepted := by
  intro s sa rg data k₁ k₂ k₃ h
  have hexec : exec (.bwr sa rg data) s = .next (beginWith Config.probeLimit (acceptWrite sa rg data) s) := rfl
  rw [hexec, beginWith_of_beginReady h, acceptWrite, startBus_eq]
  rfl

/-- Settles O29, as O28. -/
theorem brdAccepted : Obligations.BrdAccepted := by
  intro s sa rg ctx arm k₁ k₂ k₃ h
  have hexec : exec (.brd sa rg ctx arm) s = .next (beginWith Config.probeLimit (acceptRead sa rg ctx arm) s) := rfl
  rw [hexec, beginWith_of_beginReady h, acceptRead, startBus_eq]
  rfl

/-! Both begins at once. -/

/-- What the acceptances of BWR and BRD have in common (R105, R106). -/
structure Accepts (accept : State → State) : Prop where
  active : ∀ u, (accept u).active = true
  result : ∀ u, (accept u).result = .ok
  tmo : ∀ u, (accept u).tmo = false
  prb : ∀ u, (accept u).prb = u.prb
  events : ∀ u, (accept u).events = u.events
  draws : ∀ u, (accept u).draws = u.draws

theorem accepts_acceptWrite (sa : SlaveAddr) (rg data : Byte) : Accepts (acceptWrite sa rg data) :=
  ⟨fun _ => rfl, fun _ => rfl, fun _ => rfl, fun _ => rfl, fun _ => rfl, fun _ => rfl⟩

theorem accepts_acceptRead (sa : SlaveAddr) (rg ctx : Byte) (arm : Bool) : Accepts (acceptRead sa rg ctx arm) :=
  ⟨fun _ => rfl, fun _ => rfl, fun _ => rfl, fun _ => rfl, fun _ => rfl, fun _ => rfl⟩

/-- A begin command is `beginWith` of its acceptance (R105, R106). -/
theorem exec_eq_beginWith (hi : isBegin i = true) :
    ∃ accept, Accepts accept ∧ ∀ s, exec i s = .next (beginWith Config.probeLimit accept s) := by
  cases i with
  | bwr sa rg data => exact ⟨_, accepts_acceptWrite sa rg data, fun _ => rfl⟩
  | brd sa rg ctx arm => exact ⟨_, accepts_acceptRead sa rg ctx arm, fun _ => rfl⟩
  | svc | ptc | pbb | pmm | t1 | t2 | t3 | t4 | t5 | t6 | t7 | t8 | uxWrite | uxRead | uxReadSeven => cases hi

/-- A begin takes samples, and then is rejected, or accepted with nothing in flight (R100, R104). -/
theorem beginWith_rejected_or_accepted (limit : Nat) (accept : State → State) (s : State) :
    ∃ fl drw, (∃ c timedOut, isRejectCode c = true ∧
        beginWith limit accept s = reject c timedOut { s with flagAnswers := fl, draws := drw }) ∨
      (s.active = false ∧ beginWith limit accept s = accept { s with flagAnswers := fl, draws := drw }) := by
  obtain ⟨-, hb⟩ | ⟨-, -, hb⟩ | ⟨-, k₁, -, -, hb⟩ | ⟨-, k₁, k₂, -, -, -, hb⟩ | ⟨ha, k₁, k₂, k₃, -, -, -, hb⟩ :=
    beginWith_cases limit accept s
  case inr.inr.inr.inr => exact ⟨_, _, .inr ⟨ha, hb⟩⟩
  all_goals exact ⟨_, _, .inl ⟨_, _, rfl, hb⟩⟩

theorem isRejectCode_iff (c : ResultCode) :
    isRejectCode c = true ↔ c = .transferNotComplete ∨ c = .busBusy ∨ c = .masterModeStillSet := by
  cases c <;> decide

/-- Settles O30: a rejection writes RESULT and TO only, and an acceptance finds nothing in flight. -/
theorem rejectedBeginTouchesNothing : Obligations.RejectedBeginTouchesNothing := by
  intro i s t hi h
  obtain ⟨accept, haccept, hexec⟩ := exec_eq_beginWith hi
  obtain rfl := Host.Outcome.next.inj ((hexec s).symm.trans h)
  obtain ⟨fl, drw, ⟨c, timedOut, hc, hb⟩ | ⟨ha, hb⟩⟩ := beginWith_rejected_or_accepted Config.probeLimit accept s
  all_goals rw [hb]
  · refine ⟨rfl, rfl, .inr ((isRejectCode_iff c).1 hc), fun _ => ⟨?_, rfl⟩, ?_⟩
    · exact ⟨rfl, rfl, rfl, rfl, rfl, rfl, rfl, rfl⟩
    · rintro (rfl : c = .ok)
      cases hc
  · have hok := haccept.result { s with flagAnswers := fl, draws := drw }
    exact ⟨haccept.events _, haccept.prb _, .inl hok, fun hne => absurd hok hne,
      fun _ => ⟨ha, haccept.active _, haccept.tmo _⟩⟩

/-! The samples of a begin (R108). -/

/-- Settles O31: each check that ran drew its probe's samples, and the checks after a failing one drew none. -/
theorem beginSampleOrder : Obligations.BeginSampleOrder := by
  intro i s t hi h
  obtain ⟨accept, haccept, hexec⟩ := exec_eq_beginWith hi
  obtain rfl := Host.Outcome.next.inj ((hexec s).symm.trans h)
  obtain ⟨ha, hb⟩ | ⟨ha, n₁, hb⟩ | ⟨ha, k₁, h₁, n₂, hb⟩ | ⟨ha, k₁, k₂, h₁, h₂, n₃, hb⟩ |
    ⟨ha, k₁, k₂, k₃, h₁, h₂, h₃, hb⟩ := beginWith_cases Config.probeLimit accept s
  all_goals rw [hb, ha]
  · exact ⟨[], (List.append_nil _).symm, Nat.zero_le _, fun _ => rfl, nofun⟩
  · refine ⟨_, ?_, ?_, nofun, fun _ => .inl ⟨rfl, rfl⟩⟩
    · simp only [reject_draws, n₁.draws, Bool.not_true]
    · rw [List.length_replicate]
      omega
  · have hk₁ := h₁.1
    refine ⟨_, ?_, ?_, nofun, fun _ => .inr (.inl ⟨rfl, k₁, hk₁, rfl⟩)⟩
    · simp only [reject_draws, n₂.draws, h₁.draws, List.append_assoc, Bool.not_true, Bool.not_false]
    · simp only [List.length_append, List.length_replicate, List.length_singleton]
      omega
  · have hk₁ := h₁.1
    have hk₂ := h₂.1
    refine ⟨_, ?_, ?_, nofun, fun _ => .inr (.inr (.inl ⟨rfl, k₁, hk₁, k₂, hk₂, rfl⟩))⟩
    · simp only [reject_draws, n₃.draws, h₂.draws, h₁.draws, List.append_assoc, Bool.not_true, Bool.not_false]
    · simp only [List.length_append, List.length_replicate, List.length_singleton]
      omega
  · have hk₁ := h₁.1
    have hk₂ := h₂.1
    have hk₃ := h₃.1
    refine ⟨_, ?_, ?_, nofun,
      fun _ => .inr (.inr (.inr ⟨haccept.result _, k₁, hk₁, k₂, hk₂, k₃, hk₃, rfl⟩))⟩
    · simp only [haccept.draws, h₃.draws, h₂.draws, h₁.draws, List.append_assoc, Bool.not_true, Bool.not_false]
    · simp only [List.length_append, List.length_replicate, List.length_singleton]
      omega

end Sys2Proof.Machine

/-! ### The service step (R120 to R137): an SVC that is pending or not, the rows one by one, and the two transactions

A row is said once, by the statement of its obligation; the two transactions chain the rows through what an SVC does to
the engine (`SameButPorts`) and to the bus (`Issues`). -/

namespace Sys2Proof.Machine

variable {s t u a : State} {f : Flag} {b : Bool} {row : State → State} {i : Instr} {r : StepRow} {p : ProtoState}

/-! SVC. -/

theorem drawFlag_of_answer (h : s.flagAt f 0 = b) :
    s.drawFlag f = { s with flagAnswers := s.flagAnswers.tail, draws := s.draws ++ [.flag f b] } := by
  rw [State.drawFlag, h]

/-- R122: the prelude's ARBL sample comes right after the sample `f` that SVC took. -/
theorem prelude_drawFlag (iif : Bool) (f : Flag) (s : State) :
    prelude iif (s.drawFlag f) = { s with
      flagAnswers := s.flagAnswers.drop 2
      draws := s.draws ++ [.flag f (s.flagAt f 0), .flag .arbl (s.flagAt .arbl 1)]
      busHistory := s.busHistory ++ (if iif then [.clrif] else []) ++
        (if s.flagAt .arbl 1 then [.clrarb] else []) } := by
  have hdrop : s.flagAnswers.tail.tail = s.flagAnswers.drop 2 := by
    rw [← List.drop_one, ← List.drop_one, List.drop_drop]
  rw [prelude_eq, flagAt_drawFlag, State.drawFlag, flagAt_drawFlag]
  simp [State.drawFlag, hdrop]

/-- Settles O10: the prelude draws the IICIF sample and the ARBL sample, and clears what they answered. -/
theorem pendingSvcRunsSelectedRow : Obligations.PendingSvcRunsSelectedRow := by
  intro s ha hp
  refine ⟨runRow (decodeStep s.dir s.state) (prelude (s.flagAt .iicif 0) (s.drawFlag .iicif)), ?_, ?_⟩
  · rw [exec_svc_of_pend ha ((pend_iff s _).2 ⟨ha, hp⟩), exec_toInstr]
  · rw [exec_toInstr, prelude_drawFlag]

/-- Settles O11: of the three ends of an SVC, the pending one needs ACTIVE and a reason to be pending. -/
theorem notPendingSvcIsNoOp : Obligations.NotPendingSvcIsNoOp := by
  have hservice : ∀ s, exec .svc s = .next (service s) := fun _ => rfl
  refine ⟨fun s hidle => ?_, fun s ha hiif hterm => ?_⟩ <;> rw [hservice]
  · obtain ⟨-, hs⟩ | ⟨ha, -⟩ | ⟨ha, -⟩ := service_cases s
    · rw [hs]
    all_goals exact absurd (ha.symm.trans hidle) (by decide)
  · obtain ⟨hidle, -⟩ | ⟨-, -, hs⟩ | ⟨-, hp, -⟩ := service_cases s
    · exact absurd (ha.symm.trans hidle) (by decide)
    · rw [hs, drawFlag_of_answer hiif]
    · simp [pend, hiif, hterm] at hp

/-! The rows with an acknowledge check (R124 to R131). -/

theorem withAck_of_acked (h : s.flagAt .acked 0 = true) :
    withAck row s =
      row { s with flagAnswers := s.flagAnswers.tail, draws := s.draws ++ [.flag .acked true] } := by
  obtain ⟨-, hw⟩ | ⟨hn, -⟩ := withAck_cases row s
  · rw [hw, drawFlag_of_answer h]
  · exact absurd (h.symm.trans hn) (by decide)

theorem withAck_of_nacked (h : s.flagAt .acked 0 = false) :
    withAck row s = recover .acknowledgeMissing
      { s with flagAnswers := s.flagAnswers.tail, draws := s.draws ++ [.flag .acked false] } := by
  obtain ⟨hy, -⟩ | ⟨-, hw⟩ := withAck_cases row s
  · exact absurd (hy.symm.trans h) (by decide)
  · rw [hw, drawFlag_of_answer h]

/-- T1, T2, T3, T5 and T6 begin with the acknowledge check. -/
theorem exec_eq_withAck (hi : (∃ d, i = .t1 d) ∨ i = .t2 ∨ i = .t3 ∨ i = .t5 ∨ i = .t6) :
    ∃ row, ∀ s, exec i s = .next (withAck row s) := by
  obtain ⟨d, rfl⟩ | rfl | rfl | rfl | rfl := hi
  all_goals exact ⟨_, fun _ => rfl⟩

/-- Settles O32: each of the five rows is an acknowledge check, whose other end is the recovery. -/
theorem ackMissingRecovery : Obligations.AckMissingRecovery := by
  intro i s hi hn
  obtain ⟨row, hrow⟩ := exec_eq_withAck hi
  rw [hrow, withAck_of_nacked hn]
  rfl

/-- Settles O33: acknowledged, the row sends REG, which the sample left as it was. -/
theorem t1Result : Obligations.T1Result := fun _ _ h => congrArg _ (withAck_of_acked h)

/-- Settles O34, as O33, with DATA0. -/
theorem t2Result : Obligations.T2Result := fun _ h => congrArg _ (withAck_of_acked h)

/-- Settles O35, as O33, with no bus action. -/
theorem t3Result : Obligations.T3Result := fun _ h => congrArg _ (withAck_of_acked h)

/-- Settles O37: the repeated start comes before the read-address byte. -/
theorem t5Result : Obligations.T5Result := by
  intro s h
  have hexec : exec .t5 s = .next (rowT5 s) := rfl
  rw [hexec, rowT5, withAck_of_acked h]
  simp [enter, report, busAct]

/-- Settles O38: the byte drawn is the adapter's next, and only the draw record holds it. -/
theorem t6Result : Obligations.T6Result := by
  intro s h
  have hexec : exec .t6 s = .next (rowT6 s) := rfl
  refine ⟨(busAct .rx (s.drawFlag .acked)).byteNext, ?_, ?_⟩
  · rw [hexec, rowT6, withAck_of_acked h, drawFlag_of_answer h]
    simp [enter, report, busAct, busRead]
  · intro c cs hc
    simp [State.byteNext, hc]

/-! The rows without (R129, R132 to R134). -/

/-- Settles O36: the row is STOP and the end of a transaction, no sample before it. -/
theorem t4Result : Obligations.T4Result := fun _ => rfl

/-- Settles O39: the byte drawn is delivered if a completion is armed; if none is, ARMED is 0 already. -/
theorem t7Result : Obligations.T7Result := by
  intro s
  have hexec : exec .t7 s = .next (rowT7 s) := rfl
  rw [hexec, rowT7, deliver_eq]
  cases ha : s.armed <;> simp [report, busAct, busRead, ha]

/-- Settles O40: the row is the end of a transaction alone, as T7 issued the STOP. -/
theorem t8Result : Obligations.T8Result := fun _ => rfl

/-- Settles O41: the three rows are the one recovery. -/
theorem unexpectedStateRecovery : Obligations.UnexpectedStateRecovery := by
  rintro i s (⟨low, rfl⟩ | ⟨low, rfl⟩ | rfl)
  all_goals rfl

/-! What a command issues on the bus, the two clearing actions left out (R137). -/

/-- From `s` to `t` the bus-action history grew, by `acts` when CLRIF and CLRARB are left out. -/
def Issues (acts : List BusAction) (s t : State) : Prop :=
  ∃ added, t.busHistory = s.busHistory ++ added ∧ added.filter (fun a => a != .clrif && a != .clrarb) = acts

theorem Issues.trans {xs ys : List BusAction} (hst : Issues xs s t) (htu : Issues ys t u) : Issues (xs ++ ys) s u := by
  obtain ⟨as, ht, rfl⟩ := hst
  obtain ⟨bs, hu, rfl⟩ := htu
  exact ⟨as ++ bs, by rw [hu, ht, List.append_assoc], List.filter_append ..⟩

/-- A row's bus actions, where it is not left for the ack-missing recovery (R126 to R134). -/
def rowActions (s : State) : StepRow → List BusAction
  | .t1 _ => [.write s.reg]
  | .t2 => [.write s.data0]
  | .t3 | .t8 => []
  | .t5 => [.rstart, .write (addrByte s.sa .read)]
  | .t6 => [.rx, .read]
  | .t7 => [.read, .stop, .tx]
  | .t4 | .uxWrite _ | .uxRead _ | .uxReadSeven => [.stop]

/-- What a row appends to the bus-action history, if it is acknowledged or asks for no acknowledge. -/
theorem runRow_busHistory (h : r.enters = none ∨ s.flagAt .acked 0 = true) :
    (runRow r s).busHistory = s.busHistory ++ rowActions s r := by
  have of_next : ∀ {t}, exec r.toInstr s = .next t → (runRow r s).busHistory = t.busHistory := fun ht =>
    congrArg State.busHistory (Host.Outcome.next.inj ((exec_toInstr r s).symm.trans ht))
  cases r with
  | t4 => rfl
  | t7 => exact of_next (t7Result s)
  | t8 => exact (List.append_nil _).symm
  | uxWrite | uxRead | uxReadSeven => rfl
  | t1 d => exact of_next (t1Result d s (h.resolve_left nofun))
  | t2 => exact of_next (t2Result s (h.resolve_left nofun))
  | t3 => exact (of_next (t3Result s (h.resolve_left nofun))).trans (List.append_nil _).symm
  | t5 => exact of_next (t5Result s (h.resolve_left nofun))
  | t6 =>
    obtain ⟨b, ht, -⟩ := t6Result s (h.resolve_left nofun)
    exact of_next ht

/-- No row clears the interrupt or arbitration flag: that is the prelude's (R122). -/
theorem filter_rowActions (s : State) (r : StepRow) :
    (rowActions s r).filter (fun a => a != .clrif && a != .clrarb) = rowActions s r := by
  cases r <;> rfl

/-- The state on which a pending SVC runs its row (R122). -/
def State.served (s : State) : State := prelude (s.flagAt .iicif 0) (s.drawFlag .iicif)

theorem SameButPorts.served (s : State) : SameButPorts s s.served := (SameButPorts.drawFlag s _).trans (.prelude _ _)

@[simp] theorem flagAt_served (s : State) (f : Flag) (k : Nat) : s.served.flagAt f k = s.flagAt f (k + 2) := by
  simp [State.served]

theorem issues_served (s : State) : Issues [] s s.served := by
  refine ⟨_, by rw [State.served, prelude_busHistory, drawFlag_busHistory, List.append_assoc], ?_⟩
  cases s.flagAt .iicif 0 <;> cases (s.drawFlag .iicif).flagAt .arbl 0 <;> rfl

/-! An SVC of a transaction whose engine fields are those of `a`. -/

theorem svc_runs_row (ha : SameButPorts a s) (hact : a.active = true)
    (hp : s.flagAt .iicif 0 = true ∨ terminal a.dir a.state = true) (h : exec .svc s = .next t) :
    t = runRow (decodeStep a.dir a.state) s.served := by
  rw [← ha.active] at hact
  rw [← ha.dir, ← ha.state] at hp ⊢
  rw [exec_svc_of_pend hact ((pend_iff s _).2 ⟨hact, hp⟩), exec_toInstr] at h
  exact (Host.Outcome.next.inj h).symm

/-- The row issues its actions, if it is acknowledged or asks for no acknowledge. -/
theorem issues_row (ha : SameButPorts a s) (h : r.enters = none ∨ s.flagAt .acked 2 = true) :
    Issues (rowActions a r) s (runRow r s.served) := by
  have hacts : rowActions s.served r = rowActions a r := by
    have hu := ha.trans (.served s)
    cases r <;> simp only [rowActions, hu.reg, hu.data0, hu.sa]
  have hrow : Issues (rowActions a r) s.served (runRow r s.served) :=
    ⟨_, hacts ▸ runRow_busHistory (by rwa [flagAt_served]), filter_rowActions a r⟩
  exact (issues_served s).trans hrow

theorem withAck_enters (hrow : ∀ u, SameButPorts (enter p u) (row u)) (h : s.flagAt .acked 0 = true) :
    SameButPorts (enter p s) (withAck row s) := by
  rw [withAck_of_acked h]
  exact SameButPorts.trans ⟨_, _, _, _, _, _, rfl⟩ (hrow _)

theorem runRow_enters (hr : r.enters = some p) (h : s.flagAt .acked 0 = true) :
    SameButPorts (enter p s) (runRow r s) := by
  cases r with
  | t1 | t2 | t3 | t5 | t6 => cases hr; exact withAck_enters (fun u => ⟨_, _, _, _, _, _, rfl⟩) h
  | t4 | t7 | t8 | uxWrite | uxRead | uxReadSeven => cases hr

/-- An acknowledged SVC enters the state that its row enters, and issues the row's actions. -/
theorem svc_enters (hr : (decodeStep a.dir a.state).enters = some p) (ha : SameButPorts a s) (hact : a.active = true)
    (hans : s.flagAt .iicif 0 = true ∧ s.flagAt .acked 2 = true) (h : exec .svc s = .next t) :
    SameButPorts (enter p a) t ∧ Issues (rowActions a (decodeStep a.dir a.state)) s t := by
  obtain ⟨hiif, hack⟩ := hans
  obtain rfl := svc_runs_row ha hact (.inl hiif) h
  exact ⟨((ha.trans (.served s)).map (enter p)).trans (runRow_enters hr (by rwa [flagAt_served])),
    issues_row ha (.inr hack)⟩

/-- The SVC of a terminal recognised pair ends the transaction: T4 or T8 (R129, R133). -/
theorem svc_finishes (hr : (decodeStep a.dir a.state).endsWith = some .ok) (ha : SameButPorts a s)
    (hact : a.active = true) (hterm : terminal a.dir a.state = true) (h : exec .svc s = .next t) :
    SameButPorts (finish a) t ∧ Issues (rowActions a (decodeStep a.dir a.state)) s t := by
  obtain rfl := svc_runs_row ha hact (.inr hterm) h
  have hu := (ha.trans (.served s)).map finish
  generalize decodeStep a.dir a.state = r at hr ⊢
  cases r with
  | t4 => exact ⟨hu.trans ⟨_, _, _, _, _, _, rfl⟩, issues_row ha (.inl rfl)⟩
  | t8 => exact ⟨hu, issues_row ha (.inl rfl)⟩
  | _ => cases hr

/-- The SVC of ReadSwitch captures the byte that its READ, the last draw, returned (R132). -/
theorem svc_captures (hr : decodeStep a.dir a.state = .t7) (ha : SameButPorts a s) (hact : a.active = true)
    (hiif : s.flagAt .iicif 0 = true) (h : exec .svc s = .next t) :
    (∃ b, t.draws.getLast? = some (.byte b) ∧ SameButPorts (capture b a) t) ∧ Issues [.read, .stop, .tx] s t := by
  obtain rfl := svc_runs_row ha hact (.inl hiif) h
  rw [hr]
  have hdraws : (rowT7 s.served).draws = s.served.draws ++ [.byte s.served.byteNext] :=
    congrArg State.draws (Host.Outcome.next.inj (t7Result s.served))
  refine ⟨⟨s.served.byteNext, ?_, ?_⟩, issues_row ha (.inl rfl)⟩
  · change (rowT7 s.served).draws.getLast? = _
    rw [hdraws, List.getLast?_concat]
  · exact ((ha.trans (.served s)).map (capture _)).trans (rowT7_end s.served)

/-! The begin of a transaction (R105 to R107). -/

/-- A begin that reports None ran its acceptance, after samples only. -/
theorem beginWith_of_result_ok {limit : Nat} {accept : State → State} (h : (beginWith limit accept s).result = .ok) :
    ∃ fl drw, beginWith limit accept s = accept { s with flagAnswers := fl, draws := drw } := by
  obtain ⟨fl, drw, ⟨c, timedOut, hc, hb⟩ | ⟨-, hb⟩⟩ := beginWith_rejected_or_accepted limit accept s
  · rw [hb, reject_result] at h
    subst h
    cases hc
  · exact ⟨fl, drw, hb⟩

theorem issues_startBus (s : State) : Issues [.tx, .start, .write (addrByte s.sa .write)] s (startBus s) :=
  ⟨_, congrArg State.busHistory (startBus_eq s), rfl⟩

theorem bwr_accepted {sa : SlaveAddr} {rg data : Byte} (h : exec (.bwr sa rg data) s = .next t) (hok : t.result = .ok) :
    SameButPorts (acceptWrite sa rg data s) t ∧ Issues [.tx, .start, .write (addrByte sa .write)] s t := by
  obtain rfl := Host.Outcome.next.inj h
  obtain ⟨fl, drw, hb⟩ := beginWith_of_result_ok hok
  rw [hb]
  exact ⟨SameButPorts.map (acceptWrite sa rg data) ⟨_, _, _, _, _, _, rfl⟩, issues_startBus { s with sa := sa }⟩

theorem brd_accepted {sa : SlaveAddr} {rg ctx : Byte} {arm : Bool} (h : exec (.brd sa rg ctx arm) s = .next t)
    (hok : t.result = .ok) :
    SameButPorts (acceptRead sa rg ctx arm s) t ∧ Issues [.tx, .start, .write (addrByte sa .write)] s t := by
  obtain rfl := Host.Outcome.next.inj h
  obtain ⟨fl, drw, hb⟩ := beginWith_of_result_ok hok
  rw [hb]
  exact ⟨SameButPorts.map (acceptRead sa rg ctx arm) ⟨_, _, _, _, _, _, rfl⟩, issues_startBus { s with sa := sa }⟩

/-! The two transactions (R135 to R137). -/

/-- Settles O52: the begin, then T1, T2 and T3 acknowledged, then T4. -/
theorem writeTransactionRunsToIdle : Obligations.WriteTransactionRunsToIdle := by
  intro sa rg data s t₀ t₁ t₂ t₃ t₄ hbegin hok h₁ h₂ h₃ h₄ hans
  obtain ⟨e₀, b₀⟩ := bwr_accepted hbegin hok
  obtain ⟨e₁, b₁⟩ := svc_enters (p := .cw) rfl e₀ rfl (hans t₀ (by simp)) h₁
  obtain ⟨e₂, b₂⟩ := svc_enters (p := .dw) rfl e₁ rfl (hans t₁ (by simp)) h₂
  obtain ⟨e₃, b₃⟩ := svc_enters (p := .wd) rfl e₂ rfl (hans t₂ (by simp)) h₃
  obtain ⟨e₄, b₄⟩ := svc_finishes rfl e₃ rfl rfl h₄
  refine ⟨?_, ?_, e₄.armed, e₄.result, e₄.events, (((b₀.trans b₁).trans b₂).trans b₃).trans b₄⟩
  · rw [e₀.state, e₁.state, e₂.state, e₃.state, e₄.state]
    rfl
  · rw [idle, e₄.state, e₄.active]
    rfl

/-- Settles O53: the begin, then T1, T5 and T6 acknowledged, then T7, which delivers, then T8. -/
theorem readTransactionDeliversByte : Obligations.ReadTransactionDeliversByte := by
  intro sa rg ctx arm s t₀ t₁ t₂ t₃ t₄ t₅ hbegin hok h₁ h₂ h₃ h₄ h₅ hans hiif
  obtain ⟨e₀, b₀⟩ := brd_accepted hbegin hok
  obtain ⟨e₁, b₁⟩ := svc_enters (p := .cw) rfl e₀ rfl (hans t₀ (by simp)) h₁
  obtain ⟨e₂, b₂⟩ := svc_enters (p := .ar) rfl e₁ rfl (hans t₁ (by simp)) h₂
  obtain ⟨e₃, b₃⟩ := svc_enters (p := .rs) rfl e₂ rfl (hans t₂ (by simp)) h₃
  obtain ⟨⟨b, hdrawn, e₄⟩, b₄⟩ := svc_captures rfl e₃ rfl hiif h₄
  obtain ⟨e₅, b₅⟩ := svc_finishes rfl e₄ rfl rfl h₅
  refine ⟨?_, ?_, e₅.armed, e₅.result,
    ⟨b, hdrawn, e₄.data0, e₅.data0, e₃.events, e₄.events, e₅.events.trans e₄.events.symm⟩,
    ((((b₀.trans b₁).trans b₂).trans b₃).trans b₄).trans b₅⟩
  · rw [e₀.state, e₁.state, e₂.state, e₃.state, e₄.state, e₅.state]
    rfl
  · rw [idle, e₅.state, e₅.active]
    rfl

end Sys2Proof.Machine

/-! ### The stand-alone probes (R160 to R165): each end of the busy-wait, and the report of PTC, PBB and PMM -/

namespace Sys2Proof.Machine

variable {limit k : Nat} {f : Flag} {ready onReady : Bool} {s : State} {i : Instr}

/-! The busy-wait (R160). -/

theorem probe_of_neverReady (h : NeverReady limit f ready s) :
    probe limit f ready s = (.timedOut, s.afterSamples f limit) := by
  obtain ⟨k, hk, -⟩ | ⟨-, hp⟩ := probe_cases limit f ready s
  · exact absurd h (not_neverReady hk)
  · exact hp

/-- Any ready answer within the limit will do: it need not be the first one. -/
theorem probe_ready_iff :
    (probe limit f ready s).1 = .ready ↔ ∃ k, k < limit ∧ s.flagAt f k = ready := by
  obtain ⟨k, ⟨hk, hready, -⟩, hp⟩ | ⟨hnever, hp⟩ := probe_cases limit f ready s <;> rw [hp]
  · exact iff_of_true rfl ⟨k, hk, hready⟩
  · refine iff_of_false nofun fun ⟨k, hk, hready⟩ => ?_
    have hnot : ready = !ready := hready.symm.trans (hnever k hk)
    exact Bool.self_ne_not ready hnot

/-- Settles O20: the two ends of the busy-wait, and which of them an adapter's answers give. -/
theorem probeEndsAtFirstReady : Obligations.ProbeEndsAtFirstReady :=
  fun _ _ _ _ => ⟨fun _ => probe_of_readyAt, probe_of_neverReady, probe_ready_iff⟩

/-! The commands PTC, PBB and PMM (R161 to R163). -/

theorem probeCommand_of_readyAt (h : ReadyAt limit f ready s k) :
    probeCommand limit f ready onReady s =
      { s.afterSamples f (k + 1) with prb := onReady, result := .ok, tmo := false } := by
  simp only [probeCommand, probe_of_readyAt h]

theorem probeCommand_of_neverReady (h : NeverReady limit f ready s) :
    probeCommand limit f ready onReady s =
      { s.afterSamples f limit with prb := !onReady, result := .hardwareTimeout, tmo := true } := by
  simp only [probeCommand, probe_of_neverReady h]

/-- The two ends of a command that is a stand-alone probe. -/
theorem exec_probe_ends (hexec : exec i s = .next (probeCommand limit f ready onReady s)) :
    (∀ k, ReadyAt limit f ready s k →
      exec i s = .next { s.afterSamples f (k + 1) with prb := onReady, result := .ok, tmo := false }) ∧
    (NeverReady limit f ready s →
      exec i s = .next { s.afterSamples f limit with prb := !onReady, result := .hardwareTimeout, tmo := true }) :=
  ⟨fun _ h => by rw [hexec, probeCommand_of_readyAt h], fun h => by rw [hexec, probeCommand_of_neverReady h]⟩

/-- Settles O21: PTC waits for TCF = 1, and PRB is 1 when it comes. -/
theorem ptcResult : Obligations.PtcResult := fun _ => exec_probe_ends rfl

/-- Settles O22: PBB waits for BUSY = 0, and PRB is 0 when it comes. -/
theorem pbbResult : Obligations.PbbResult := fun _ => exec_probe_ends rfl

/-- Settles O23: PMM waits for MST = 0, and PRB is 0 when it comes. -/
theorem pmmResult : Obligations.PmmResult := fun _ => exec_probe_ends rfl

/-! All three at once (R164). -/

theorem exec_eq_probeCommand (hi : isProbe i = true) :
    ∃ f ready onReady, ∀ s, exec i s = .next (probeCommand Config.probeLimit f ready onReady s) := by
  cases i with
  | ptc | pbb | pmm => exact ⟨_, _, _, fun _ => rfl⟩
  | bwr | brd | svc | t1 | t2 | t3 | t4 | t5 | t6 | t7 | t8 | uxWrite | uxRead | uxReadSeven => cases hi

/-- Settles O24: both ends of a probe write PRB, RESULT and TO into the state after its samples. -/
theorem probesLeaveTransaction : Obligations.ProbesLeaveTransaction := by
  intro i s hi
  obtain ⟨f, ready, onReady, hexec⟩ := exec_eq_probeCommand hi
  refine ⟨_, hexec s, ?_⟩
  obtain ⟨k, -, hp⟩ | ⟨-, hp⟩ := probeCommand_cases Config.probeLimit f ready onReady s <;> rw [hp]
  · exact ⟨⟨rfl, rfl, rfl, rfl, rfl, rfl, rfl, rfl⟩, rfl, rfl, nofun, fun _ => rfl⟩
  · exact ⟨⟨rfl, rfl, rfl, rfl, rfl, rfl, rfl, rfl⟩, rfl, rfl, fun _ => rfl, nofun⟩

end Sys2Proof.Machine

/-! ### The reference client (R170 to R181): the axis value, the handler, `client_service()` and a turn of the loop -/

namespace Sys2Proof.Machine

variable {p : ClientParams} {c d : Client} {s t : State}

/-! The sample (R178) and the completion handler (R174). -/

/-- Settles O56: the pair is the numeral hi × 256 + lo, and its sign is the top bit. -/
theorem axisAssembly : Obligations.AxisAssembly := by
  refine ⟨fun hi lo => ?_, fun _ => rfl⟩
  have hpair : (hi ++ lo).toNat = hi.toNat * 256 + lo.toNat := toNat_append_eq_add hi lo
  rw [axis, BitVec.toInt_eq_toNat_cond, hpair]
  split <;> split <;> omega

/-- Settles O57: the handler is a bounds-checked write at index CTX. -/
theorem completionHandlerStoresByte : Obligations.CompletionHandlerStoresByte := by
  intro c e j hj
  exact ⟨Vector.getElem_setIfInBounds hj, rfl, rfl⟩

/-! What the client's two tests see in a STATUS word (R36, R173). -/

theorem code_eq_zero_iff_aw (q : ProtoState) : q.code.toNat = 0 ↔ q = .aw := by
  cases q <;> decide

theorem code_eq_zero_iff_ok (r : ResultCode) : r.code.toNat = 0 ↔ r = .ok := by
  cases r <;> decide

/-- The STATUS word's fields that the client tests are digits of its numeral. -/
theorem statusWord_digits (s : State) (pending : Bool) :
    (statusWord s pending).toNat % 2 ^ 3 = s.state.code.toNat ∧
      (statusWord s pending).toNat / 2 ^ 4 % 2 = s.active.toNat ∧
      (statusWord s pending).toNat / 2 ^ 8 % 2 ^ 3 = s.result.code.toNat := by
  have hstate := s.state.code.isLt
  have hdir := s.dir.bit.isLt
  have hactive := s.active.toNat_lt
  have hpending := pending.toNat_lt
  have harmed := s.armed.toNat_lt
  have hprb := s.prb.toNat_lt
  have hresult := s.result.code.isLt
  rw [statusLayout s pending]
  omega

theorem statusIdle_statusWord (s : State) (pending : Bool) : statusIdle (statusWord s pending) = idle s := by
  obtain ⟨hstate, hactive, -⟩ := statusWord_digits s pending
  have hzero : Word.bits (statusWord s pending) 0 3 = 0#3 ↔ s.state = .aw := by
    rw [BitVec.toNat_eq, bits_toNat, Nat.pow_zero, Nat.div_one, hstate]
    exact code_eq_zero_iff_aw s.state
  have hbit : (statusWord s pending).getLsbD 4 = s.active := by
    rw [BitVec.getLsbD, Nat.testBit_eq_decide_div_mod_eq, hactive]
    cases s.active <;> rfl
  rw [Bool.eq_iff_iff]
  simp only [statusIdle, idle, hbit, Bool.and_eq_true, beq_iff_eq, hzero]

theorem statusAccepted_statusWord (s : State) (pending : Bool) :
    statusAccepted (statusWord s pending) = true ↔ s.result = .ok := by
  obtain ⟨-, -, hresult⟩ := statusWord_digits s pending
  rw [statusAccepted, beq_iff_eq, BitVec.toNat_eq, bits_toNat, hresult]
  exact code_eq_zero_iff_ok s.result

/-! `client_service()` (R173, R176): its STATUS reads, and the begin it writes. -/

/-- A STATUS read gives the client the word of the state it finds, and touches the ports only (R63). -/
theorem clientReadStatus_eq (s : State) :
    ∃ pending, (clientReadStatus s).1 = statusWord s pending ∧ SameButPorts s (clientReadStatus s).2 := by
  have hread : clientReadStatus s = ((readWindow 4 s).1, giveHost (readWindow 4 s)) := rfl
  rw [hread]
  cases ha : s.active with
  | false =>
    rw [readWindow_status_idle ha]
    exact ⟨_, rfl, _, _, _, _, _, _, rfl⟩
  | true =>
    rw [readWindow_status_inFlight ha]
    exact ⟨_, rfl, _, _, _, _, _, _, rfl⟩

theorem isBegin_command (p : ClientParams) (c : Client) : isBegin (c.command p) = true := by
  unfold Client.command
  split <;> rfl

theorem decodeCmd_commandWord (p : ClientParams) (c : Client) : decodeCmd (c.commandWord p) = .ok (c.command p) := by
  cases hc : c.phase <;> simp only [Client.commandWord, Client.command, hc]
  case initializing => exact decodeCmd_packCmd_bwr _ _ _
  case running => exact decodeCmd_packCmd_brd _ _ _ _

/-- The client's write to CMD runs its begin, and one that reports None is in flight (R105, R106). -/
theorem hostAccess_commandWord (p : ClientParams) (c : Client) (s : State) :
    ∃ t, hostAccess (Access.cmd (c.commandWord p)) s = .next t ∧ (t.result = .ok → t.active = true) := by
  obtain ⟨accept, -, hexec⟩ := exec_eq_beginWith (isBegin_command p c)
  obtain ⟨-, -, -, -, hok⟩ := rejectedBeginTouchesNothing _ _ _ (isBegin_command p c) (hexec s)
  have hrun : hostAccess (Access.cmd (c.commandWord p)) s = .next (beginWith Config.probeLimit accept s) := by
    rw [hostAccess_cmd, writeCommand_of_decodeCmd (decodeCmd_commandWord p c), hexec]
  refine ⟨_, hrun, fun hresult => ?_⟩
  obtain ⟨-, hactive, -⟩ := hok hresult
  exact hactive

/-- `d` is in the phase and at the step of `c`. -/
def Client.SamePlace (c d : Client) : Prop := d.phase = c.phase ∧ d.step = c.step

theorem Client.SamePlace.refl (c : Client) : c.SamePlace c := ⟨rfl, rfl⟩

/-- The handler moves neither the phase nor the step, however many events it runs for (R174). -/
theorem Client.samePlace_handleNew (c : Client) (s : State) : c.SamePlace (c.handleNew s) := by
  have hfold (es : List Completion) (c : Client) : c.SamePlace (es.foldl Client.handle c) := by
    induction es generalizing c with
    | nil => exact .refl c
    | cons e es ih => exact ih (c.handle e)
  exact hfold _ c

/-- After its begin the client advances exactly when the begin reported None (R176). -/
theorem Client.afterBegin_cases (c : Client) (s : State) :
    SameButPorts s (c.afterBegin s).2 ∧
      ((s.result = .ok ∧ c.advance.SamePlace (c.afterBegin s).1) ∨
        (s.result ≠ .ok ∧ c.SamePlace (c.afterBegin s).1)) := by
  obtain ⟨pending, hword, hports⟩ := clientReadStatus_eq s
  refine ⟨hports, ?_⟩
  simp only [Client.afterBegin, hword, statusAccepted_statusWord]
  split
  next hok => exact .inl ⟨hok, samePlace_handleNew _ _⟩
  next hne => exact .inr ⟨hne, samePlace_handleNew _ _⟩

/-- Everything `client_service()` can do to the phase and the step: it always completes; the client stays, or it
advances on an accepted begin from an idle engine. -/
theorem Client.service_cases (p : ClientParams) (c : Client) (s : State) :
    ∃ d t, c.service p s = .next (d, t) ∧
      (c.SamePlace d ∨ (c.advance.SamePlace d ∧ idle s = true ∧ t.active = true ∧ t.result = .ok)) := by
  obtain ⟨pending, hword, -⟩ := clientReadStatus_eq s
  obtain ⟨u, hbegin, hactive⟩ := hostAccess_commandWord p c (clientReadStatus s).2
  simp only [Client.service, hword, statusIdle_statusWord, hbegin, thenClient]
  split
  next hidle =>
    obtain ⟨hports, ⟨hok, hadv⟩ | ⟨-, hstay⟩⟩ := c.afterBegin_cases u
    · exact ⟨_, _, rfl, .inr ⟨hadv, hidle, hports.active.trans (hactive hok), hports.result.trans hok⟩⟩
    · exact ⟨_, _, rfl, .inl hstay⟩
  next => exact ⟨_, _, rfl, .inl (.refl c)⟩

/-- Settles O58: where the client does not stay, its begin was accepted from an idle engine. -/
theorem clientAdvancesOnAcceptanceOnly : Obligations.ClientAdvancesOnAcceptanceOnly := by
  intro p c s
  obtain ⟨d, t, hservice, ⟨hphase, hstep⟩ | ⟨-, haccepted⟩⟩ := c.service_cases p s
  · exact ⟨d, t, hservice, fun hmoved => absurd ⟨hphase, hstep⟩ (not_and_or.2 hmoved)⟩
  · exact ⟨d, t, hservice, fun _ => haccepted⟩

/-! The range of the step (R172, R181). -/

/-- The step is one of the phase's own: 0 to 1 while Initializing, 0 to 5 while Running. -/
def Client.StepInRange (c : Client) : Prop :=
  (c.phase = .initializing → c.step ≤ 1) ∧ (c.phase = .running → c.step ≤ 5)

theorem Client.StepInRange.of_samePlace (hc : c.StepInRange) (h : c.SamePlace d) : d.StepInRange := by
  obtain ⟨hphase, hstep⟩ := h
  rwa [Client.StepInRange, hphase, hstep]

/-- Each phase's last step is followed by step 0, of Running (R173). -/
theorem Client.StepInRange.advance (hc : c.StepInRange) : c.advance.StepInRange := by
  obtain ⟨hinit, hrun⟩ := hc
  cases hphase : c.phase <;> simp only [Client.advance, hphase, beq_iff_eq] <;> split
  case initializing.isTrue | running.isTrue => exact ⟨fun _ => Nat.zero_le 1, fun _ => Nat.zero_le 5⟩
  case initializing.isFalse hne =>
    have hle := hinit hphase
    exact ⟨fun _ => show c.step + 1 ≤ 1 by omega, nofun⟩
  case running.isFalse hne =>
    have hle := hrun hphase
    exact ⟨nofun, fun _ => show c.step + 1 ≤ 5 by omega⟩

theorem Client.StepInRange.service (hc : c.StepInRange) (h : c.service p s = .next (d, t)) : d.StepInRange := by
  obtain ⟨e, u, hservice, hplace⟩ := c.service_cases p s
  obtain ⟨rfl, rfl⟩ := Prod.mk.inj (Host.Outcome.next.inj (hservice.symm.trans h))
  obtain hstay | ⟨hadv, -⟩ := hplace
  · exact hc.of_samePlace hstay
  · exact hc.advance.of_samePlace hadv

/-- Everything a turn can do (R175): `client_service()`, after an SVC and the handler if PEND was read. -/
theorem Client.loopTurn_cases (h : c.loopTurn p s = .next (d, t)) :
    ∃ c₀ s₀, c.SamePlace c₀ ∧ c₀.service p s₀ = .next (d, t) := by
  unfold Client.loopTurn at h
  dsimp only at h
  split at h
  · split at h
    next s' _ => exact ⟨_, s', c.samePlace_handleNew s', h⟩
    all_goals cases h
  · exact ⟨c, _, .refl c, h⟩

/-- Settles O59: the handler keeps the range, and so does `client_service()`. -/
theorem clientStepStaysInRange : Obligations.ClientStepStaysInRange := by
  intro p c c' s t hturn hinit hrun
  obtain ⟨c₀, s₀, hplace, hservice⟩ := Client.loopTurn_cases hturn
  have hc : c.StepInRange := ⟨hinit, hrun⟩
  exact (hc.of_samePlace hplace).service hservice

end Sys2Proof.Machine

/-! ### The rejections and the completion of commands (R200 to R210) -/

namespace Sys2Proof.Machine

variable {limit k₁ : Nat} {c : ResultCode} {timedOut : Bool} {s t : State} {i : Instr}

/-! The check a begin fails at (R101 to R103). -/

theorem checkStart_of_active (h : s.active = true) :
    checkStart limit s = ⟨.transferNotComplete, false, s⟩ := if_pos h

theorem checkStart_of_tcf_neverReady (ha : s.active = false) (h : NeverReady limit .tcf true s) :
    checkStart limit s = ⟨.transferNotComplete, true, s.afterSamples .tcf limit⟩ := by
  simp only [checkStart, ha, Bool.false_eq_true, if_false, probe_of_neverReady h]

theorem checkStart_of_tcf_readyAt (ha : s.active = false) (h : ReadyAt limit .tcf true s k₁) :
    checkStart limit s = checkBus limit (s.afterTcf k₁) := by
  simp only [checkStart, ha, Bool.false_eq_true, if_false, probe_of_readyAt h, State.afterTcf]

theorem checkBus_of_neverReady (h : NeverReady limit .busy false s) :
    checkBus limit s = ⟨.busBusy, true, s.afterSamples .busy limit⟩ := by
  simp only [checkBus, probe_of_neverReady h]

theorem checkMaster_of_neverReady (h : NeverReady limit .mst false s) :
    checkMaster limit s = ⟨.masterModeStillSet, true, s.afterSamples .mst limit⟩ := by
  simp only [checkMaster, probe_of_neverReady h]

/-- A begin reports the code and the timed-out bit of the check it fails at, in the state after the samples (R104). -/
theorem exec_begin_of_failed_check (hi : isBegin i = true)
    (hcheck : checkStart Config.probeLimit s = ⟨c, timedOut, t⟩) (hc : (c == .ok) = false) :
    exec i s = .next { t with result := c, tmo := timedOut } := by
  obtain ⟨accept, -, hexec⟩ := exec_eq_beginWith hi
  have hreject : beginWith Config.probeLimit accept s = reject c timedOut t := by
    simp only [beginWith, hcheck, hc, Bool.false_eq_true, if_false]
  rw [hexec, hreject]
  rfl

/-- Settles O25: check (1) fails on ACTIVE before any sample, or on its probe. -/
theorem transferNotCompleteRejection : Obligations.TransferNotCompleteRejection := fun _ _ hi =>
  ⟨fun ha => exec_begin_of_failed_check hi (checkStart_of_active ha) rfl,
    fun ha hnever => exec_begin_of_failed_check hi (checkStart_of_tcf_neverReady ha hnever) rfl⟩

/-- Settles O26: check (1) passes, and check (2) times out on the state after its samples. -/
theorem busBusyRejection : Obligations.BusBusyRejection := fun _ _ _ hi ha htcf hnever =>
  exec_begin_of_failed_check hi ((checkStart_of_tcf_readyAt ha htcf).trans (checkBus_of_neverReady hnever)) rfl

/-- Settles O27: checks (1) and (2) pass, and check (3) times out on the state after their samples. -/
theorem masterModeRejection : Obligations.MasterModeRejection := fun _ _ _ _ hi hready hnever =>
  exec_begin_of_failed_check hi ((checkStart_of_busReady hready).trans (checkMaster_of_neverReady hnever)) rfl

/-! Completion (R210). -/

/-- Settles O46: a command runs its begin, its probe or the service, and a row runs its own effect. -/
theorem commandsAlwaysComplete : Obligations.CommandsAlwaysComplete := by
  intro i s
  obtain ⟨hcmd, -⟩ | ⟨r, rfl⟩ := isCommand_or_row i
  · cases i with
    | bwr sa rg data => exact ⟨beginWith Config.probeLimit (acceptWrite sa rg data) s, rfl⟩
    | brd sa rg ctx arm => exact ⟨beginWith Config.probeLimit (acceptRead sa rg ctx arm) s, rfl⟩
    | svc => exact ⟨service s, rfl⟩
    | ptc | pbb | pmm => exact ⟨probeCommand Config.probeLimit _ _ _ s, rfl⟩
    | t1 | t2 | t3 | t4 | t5 | t6 | t7 | t8 | uxWrite | uxRead | uxReadSeven => cases hcmd
  · exact ⟨runRow r s, exec_toInstr r s⟩

end Sys2Proof.Machine

/-! ### A stalled transaction (R236) -/

namespace Sys2Proof.Machine

variable {s t : State} {i : Instr}

theorem isBegin_or_isProbe_or_svc (hi : i.isCommand = true) : isBegin i = true ∨ isProbe i = true ∨ i = .svc := by
  cases i with
  | bwr | brd => exact .inl rfl
  | ptc | pbb | pmm => exact .inr (.inl rfl)
  | svc => exact .inr (.inr rfl)
  | t1 | t2 | t3 | t4 | t5 | t6 | t7 | t8 | uxWrite | uxRead | uxReadSeven => cases hi

/-- R121: in flight but not pending, an SVC is one sample of IICIF. -/
theorem exec_svc_of_stalled (ha : s.active = true) (hterm : terminal s.dir s.state = false)
    (hiif : s.flagAt .iicif 0 = false) : exec .svc s = .next (s.drawFlag .iicif) := by
  obtain ⟨-, hnoop⟩ := notPendingSvcIsNoOp
  rw [hnoop s ha hiif hterm, drawFlag_of_answer hiif]

/-- No timeout and no abort: a begin is rejected, a probe leaves the transaction, and an SVC is not pending. -/
theorem exec_of_stalled (hi : i.isCommand = true) (ha : s.active = true) (hterm : terminal s.dir s.state = false)
    (hiif : s.flagAt .iicif 0 = false) (h : exec i s = .next t) :
    SamePacket s t ∧ t.busHistory = s.busHistory ∧ t.events = s.events := by
  obtain hbegin | hprobe | rfl := isBegin_or_isProbe_or_svc hi
  · obtain ⟨hreject, -⟩ := transferNotCompleteRejection i s hbegin
    obtain rfl := Host.Outcome.next.inj ((hreject ha).symm.trans h)
    exact ⟨⟨rfl, rfl, rfl, rfl, rfl, rfl, rfl, rfl⟩, rfl, rfl⟩
  · obtain ⟨u, hu, hpacket, hbus, hevents, -⟩ := probesLeaveTransaction i s hprobe
    obtain rfl := Host.Outcome.next.inj (hu.symm.trans h)
    exact ⟨hpacket, hbus, hevents⟩
  · obtain rfl := Host.Outcome.next.inj ((exec_svc_of_stalled ha hterm hiif).symm.trans h)
    exact ⟨⟨rfl, rfl, rfl, rfl, rfl, rfl, rfl, rfl⟩, rfl, rfl⟩

theorem runCommands_cons_of_next {is : List Instr} (h : exec i s = .next t) :
    runCommands (i :: is) s = runCommands is t := by
  simp only [runCommands, h]

/-- The first SVC takes one sample and leaves the transaction where it was, with the other samples still to come. -/
theorem runCommands_svcs_of_stalled (n : Nat) (s : State) (ha : s.active = true)
    (hterm : terminal s.dir s.state = false) (hiif : ∀ j < n, s.flagAt .iicif j = false) :
    runCommands (List.replicate n .svc) s = .next (s.afterSamples .iicif n) := by
  induction n generalizing s with
  | zero => rw [afterSamples_zero]; rfl
  | succ n ih =>
    have hrest : ∀ j < n, (s.drawFlag .iicif).flagAt .iicif j = false := fun j hj => by
      rw [flagAt_drawFlag]
      exact hiif (j + 1) (Nat.succ_lt_succ hj)
    calc runCommands (.svc :: List.replicate n .svc) s
      _ = runCommands (List.replicate n .svc) (s.drawFlag .iicif) :=
        runCommands_cons_of_next (exec_svc_of_stalled ha hterm (hiif 0 n.succ_pos))
      _ = .next ((s.drawFlag .iicif).afterSamples .iicif n) := ih (s.drawFlag .iicif) ha hterm hrest
      _ = .next (s.afterSamples .iicif (n + 1)) := by rw [afterSamples_succ]

/-- Settles O54: one command does not move the transaction, and so neither do `n` SVCs, by induction on `n`. -/
theorem stalledTransactionStaysInFlight : Obligations.StalledTransactionStaysInFlight :=
  ⟨fun _ _ _ => exec_of_stalled, runCommands_svcs_of_stalled⟩

end Sys2Proof.Machine
